-- ==== Sys2Proof/Word.lean ====
section
/-! DEFINITION. The machine's words: the byte, the instruction word, the 16-bit address and the 12-bit
address field (spec/00_scope.md R8, R10, R12; every value is unsigned, R10). -/

namespace Sys2Proof

/-- An 8-bit value: a memory cell, a general register, a timer (R8 `CELL_WIDTH`, `V_WIDTH`, `TIMER_WIDTH`). -/
abbrev Byte := BitVec 8

/-- A 16-bit instruction word (R8 `INSN_WIDTH`, R70). -/
abbrev Word := BitVec 16

/-- A 16-bit address value: `I`, `pc`, a stack entry (R8 `I_WIDTH`, `PC_WIDTH`, `STACK_ENTRY_WIDTH`). -/
abbrev Addr := BitVec 16

/-- A 12-bit address field `NNN` (R12, R72). -/
abbrev Addr12 := BitVec 12

/-- One bit per keypad key, bit `k` for key `k` (R32, R34, R100 `keys_in`). -/
abbrev Keys := BitVec 16

end Sys2Proof
end

