-- ==== Sys2Proof/Config.lean ====
section
/-! DEFINITION. What is fixed for one machine: the model parameters of spec/00_scope.md R9, each with every
value the spec gives it, and the FREE VALUES of the core's inputs (spec/40_cycle.md R100;
spec/93_implementation_defined.md U10, U11, U13), which have no body.
The fixed sizes of R8 stand here too. -/

namespace Sys2Proof

/-- `UNKNOWN_OPCODE_POLICY` (R9, R107). -/
inductive UnknownOpcodePolicy where
  | nop
  | fatal
deriving DecidableEq, Repr

/-- `FX1E_POLICY` (R9, R201). -/
inductive Fx1ePolicy where
  | carryVF
  | wrap12
deriving DecidableEq, Repr

/-- `FX0A_MODE` (R9, R254). -/
inductive Fx0aMode where
  | block
  | nop
deriving DecidableEq, Repr

/-- `SHIFT_SOURCE` (R9, R176, R178). -/
inductive ShiftSource where
  | vx
  | vy
deriving DecidableEq, Repr

/-- `FONT` (R9, R301): 80 bytes. -/
abbrev Font := Vector Byte 80

/-- The model parameters of R9 other than `RNG`, whose value is a free draw (`Config.freeRand`).
They are held in `State.config`, which no step changes (notes/assumptions/1.md, DESIGN CHOICE). -/
structure Config where
  unknownOpcode : UnknownOpcodePolicy
  fx1e          : Fx1ePolicy
  fx0a          : Fx0aMode
  shiftSource   : ShiftSource
  logicResetsVF : Bool
  font          : Font
deriving DecidableEq, Repr

/-- `MEM_SIZE` (R8): the number of memory cells; the addresses are those below it. -/
def memSize : Nat := 4096

/-- `PROGRAM_BASE` (R8): where the ROM is placed and the first fetch happens (R305). -/
def programBase : Nat := 0x200

/-- `ROM_MAX` (R8): the longest ROM that is accepted. -/
def romMax : Nat := 3584

/-- The font of R301, the default of `FONT`, one glyph a line.
The byte values are marked by the spec as general knowledge (notes/assumptions/13.md, PRESUMED). -/
def Config.conventionalFont : Font := #v[
  0xF0, 0x90, 0x90, 0x90, 0xF0,
  0x20, 0x60, 0x20, 0x20, 0x70,
  0xF0, 0x10, 0xF0, 0x80, 0xF0,
  0xF0, 0x10, 0xF0, 0x10, 0xF0,
  0x90, 0x90, 0xF0, 0x10, 0x10,
  0xF0, 0x80, 0xF0, 0x10, 0xF0,
  0xF0, 0x80, 0xF0, 0x90, 0xF0,
  0xF0, 0x10, 0x20, 0x40, 0x40,
  0xF0, 0x90, 0xF0, 0x90, 0xF0,
  0xF0, 0x90, 0xF0, 0x10, 0xF0,
  0xF0, 0x90, 0xF0, 0x90, 0x90,
  0xE0, 0x90, 0xE0, 0x90, 0xE0,
  0xF0, 0x80, 0x80, 0x80, 0xF0,
  0xE0, 0x90, 0x90, 0x90, 0xE0,
  0xF0, 0x80, 0xF0, 0x80, 0xF0,
  0xF0, 0x80, 0xF0, 0x80, 0x80]

/-- Every parameter at the default R9 gives it. -/
def Config.default : Config where
  unknownOpcode := .nop
  fx1e          := .carryVF
  fx0a          := .block
  shiftSource   := .vx
  logicResetsVF := false
  font          := Config.conventionalFont

/-- FREE VALUE: the `ticks` input of the n-th cycle whose input nobody supplied (R100, U11; notes/assumptions/2.md). -/
opaque Config.freeTicks : Nat → Nat

/-- FREE VALUE: the `keys_in` input of that cycle (R100, U13; notes/assumptions/2.md). -/
opaque Config.freeKeys : Nat → Keys

/-- FREE VALUE: the `quit_in` input of that cycle (R100, U13; notes/assumptions/2.md). -/
opaque Config.freeQuit : Nat → Bool

/-- FREE VALUE: the `rand_in` byte of the n-th CXKK whose byte nobody supplied (R180, U10; notes/assumptions/3.md). -/
opaque Config.freeRand : Nat → Byte

end Sys2Proof
end

