-- ==== Sys2Proof/Syntax.lean ====
section
/-! DEFINITION. The instructions: one constructor per row of the opcode map (spec/30_encoding.md R80,
spec/opcode_table.json), with the fields that row names (R72).
The types admit exactly the values the fields admit (R73). -/

namespace Sys2Proof

/-- A register index `X` or `Y`: V0 to VF (R21, R72). -/
abbrev Reg := Fin 16

/-- VF, register 15, the flag register (R22). -/
def Reg.vf : Reg := 15

/-- The instruction set: 34 instructions and the halt sentinel (R2, R80). -/
inductive Instr where
  /-- 0000 -/
  | halt
  /-- 00E0 -/
  | cls
  /-- 00EE -/
  | ret
  /-- 1NNN -/
  | jp (nnn : Addr12)
  /-- 2NNN -/
  | call (nnn : Addr12)
  /-- 3XKK -/
  | seImm (x : Reg) (kk : Byte)
  /-- 4XKK -/
  | sneImm (x : Reg) (kk : Byte)
  /-- 5XY0, low nibble ignored (R76) -/
  | seReg (x y : Reg)
  /-- 6XKK -/
  | ldImm (x : Reg) (kk : Byte)
  /-- 7XKK -/
  | addImm (x : Reg) (kk : Byte)
  /-- 8XY0 -/
  | ldReg (x y : Reg)
  /-- 8XY1 -/
  | orReg (x y : Reg)
  /-- 8XY2 -/
  | andReg (x y : Reg)
  /-- 8XY3 -/
  | xorReg (x y : Reg)
  /-- 8XY4 -/
  | addReg (x y : Reg)
  /-- 8XY5 -/
  | subReg (x y : Reg)
  /-- 8XY6 -/
  | shr (x y : Reg)
  /-- 8XY7 -/
  | subn (x y : Reg)
  /-- 8XYE -/
  | shl (x y : Reg)
  /-- 9XY0, low nibble ignored (R76) -/
  | sneReg (x y : Reg)
  /-- ANNN -/
  | ldI (nnn : Addr12)
  /-- BNNN -/
  | jpV0 (nnn : Addr12)
  /-- CXKK -/
  | rnd (x : Reg) (kk : Byte)
  /-- DXYN: `n` is the number of sprite rows -/
  | drw (x y : Reg) (n : Fin 16)
  /-- EX9E -/
  | skp (x : Reg)
  /-- EXA1 -/
  | sknp (x : Reg)
  /-- FX07 -/
  | ldVxDT (x : Reg)
  /-- FX0A -/
  | ldVxK (x : Reg)
  /-- FX15 -/
  | ldDTVx (x : Reg)
  /-- FX18 -/
  | ldSTVx (x : Reg)
  /-- FX1E -/
  | addI (x : Reg)
  /-- FX29 -/
  | ldF (x : Reg)
  /-- FX33 -/
  | ldB (x : Reg)
  /-- FX55 -/
  | stRegs (x : Reg)
  /-- FX65 -/
  | ldRegs (x : Reg)
deriving DecidableEq, Repr

end Sys2Proof
end

