-- ==== Sys2Proof/WellFormed.lean ====
section
/-! DEFINITION. The checks on what is handed to the machine: that an instruction's operands fit the fields
of its encoding (spec/30_encoding.md R72, R73), and that a ROM fits program memory
(spec/70_reset_and_hazards.md R303). -/

namespace Sys2Proof

/-- An instruction's operands as (width of the field in bits, value), left to right in the word (R72). -/
def Instr.operands : Instr → List (Nat × Nat)
  | .halt => []
  | .cls => []
  | .ret => []
  | .jp nnn => [(12, nnn.toNat)]
  | .call nnn => [(12, nnn.toNat)]
  | .seImm x kk => [(4, x), (8, kk.toNat)]
  | .sneImm x kk => [(4, x), (8, kk.toNat)]
  | .seReg x y => [(4, x), (4, y)]
  | .ldImm x kk => [(4, x), (8, kk.toNat)]
  | .addImm x kk => [(4, x), (8, kk.toNat)]
  | .ldReg x y => [(4, x), (4, y)]
  | .orReg x y => [(4, x), (4, y)]
  | .andReg x y => [(4, x), (4, y)]
  | .xorReg x y => [(4, x), (4, y)]
  | .addReg x y => [(4, x), (4, y)]
  | .subReg x y => [(4, x), (4, y)]
  | .shr x y => [(4, x), (4, y)]
  | .subn x y => [(4, x), (4, y)]
  | .shl x y => [(4, x), (4, y)]
  | .sneReg x y => [(4, x), (4, y)]
  | .ldI nnn => [(12, nnn.toNat)]
  | .jpV0 nnn => [(12, nnn.toNat)]
  | .rnd x kk => [(4, x), (8, kk.toNat)]
  | .drw x y n => [(4, x), (4, y), (4, n)]
  | .skp x => [(4, x)]
  | .sknp x => [(4, x)]
  | .ldVxDT x => [(4, x)]
  | .ldVxK x => [(4, x)]
  | .ldDTVx x => [(4, x)]
  | .ldSTVx x => [(4, x)]
  | .addI x => [(4, x)]
  | .ldF x => [(4, x)]
  | .ldB x => [(4, x)]
  | .stRegs x => [(4, x)]
  | .ldRegs x => [(4, x)]

/-- Every operand value is below 2 to the width of its field. -/
def operandsFit (fs : List (Nat × Nat)) : Bool := fs.all fun f => decide (f.2 < 2 ^ f.1)

/-- A well-formed instruction. The operand types of `Instr` admit only fitting values, so every term
passes (`Instr.wellFormed_all` in Laws/Encoding.lean): nothing needs to be assumed of an instruction. -/
def Instr.wellFormed (i : Instr) : Bool := operandsFit i.operands

/-- A ROM that initialisation accepts: at most 3584 bytes (R303). -/
def romFits (rom : List Byte) : Bool := decide (rom.length ≤ romMax)

end Sys2Proof
end

