-- ==== Sys2Proof/Decode.lean ====
section
/-! DEFINITION. Decoding and encoding of the one 16-bit instruction word (spec/30_encoding.md R70 to R86).
`decodeWord` follows the families of R74 to R79; `Instr.mask` and `Instr.code` are the columns `mask` and
`match` of the opcode map R80, a second reading of the same encoding. -/

namespace Sys2Proof

/-! ### Fields (R72) -/

/-- `w[hi:lo]`: the bits `hi` down to `lo` as an unsigned number (R10). -/
def bitsOf (w : Word) (hi lo : Nat) : Nat := w.toNat / 2 ^ lo % 2 ^ (hi - lo + 1)

/-- `F = w[15:12]`. -/
def fieldF (w : Word) : Nat := bitsOf w 15 12

/-- `NNN = w[11:0]`. -/
def fieldNNN (w : Word) : Addr12 := BitVec.ofNat 12 (bitsOf w 11 0)

/-- `X = w[11:8]`. -/
def fieldX (w : Word) : Reg := Fin.ofNat 16 (bitsOf w 11 8)

/-- `Y = w[7:4]`. -/
def fieldY (w : Word) : Reg := Fin.ofNat 16 (bitsOf w 7 4)

/-- `KK = w[7:0]`. -/
def fieldKK (w : Word) : Byte := BitVec.ofNat 8 (bitsOf w 7 0)

/-- `N = w[3:0]`. -/
def fieldN (w : Word) : Fin 16 := Fin.ofNat 16 (bitsOf w 3 0)

/-! ### Decode -/

/-- Why bytes are not an instruction. Unknown words are named by the family they fall in (R81). -/
inductive DecodeError where
  /-- fewer than the two bytes of an instruction (R83) -/
  | truncated
  /-- `0NNN` other than 0000, 00E0 and 00EE (R75) -/
  | unknownFamily0 (w : Word)
  /-- `8XYN` with `N` in 8, 9, A, B, C, D, F (R77) -/
  | unknownFamily8 (w : Word)
  /-- `EXKK` with `KK` not 9E or A1 (R78) -/
  | unknownFamilyE (w : Word)
  /-- `FXKK` with a `KK` that R79 does not list -/
  | unknownFamilyF (w : Word)
deriving DecidableEq, Repr

/-- Family 0: the whole word selects (R75). The halt sentinel is tested first (R74). -/
def decodeFamily0 (w : Word) : Except DecodeError Instr :=
  if w = 0x0000#16 then .ok .halt
  else if w = 0x00E0#16 then .ok .cls
  else if w = 0x00EE#16 then .ok .ret
  else .error (.unknownFamily0 w)

/-- Family 8: `N` selects (R77). -/
def decodeFamily8 (w : Word) : Except DecodeError Instr :=
  match (fieldN w).val with
  | 0x0 => .ok (.ldReg (fieldX w) (fieldY w))
  | 0x1 => .ok (.orReg (fieldX w) (fieldY w))
  | 0x2 => .ok (.andReg (fieldX w) (fieldY w))
  | 0x3 => .ok (.xorReg (fieldX w) (fieldY w))
  | 0x4 => .ok (.addReg (fieldX w) (fieldY w))
  | 0x5 => .ok (.subReg (fieldX w) (fieldY w))
  | 0x6 => .ok (.shr (fieldX w) (fieldY w))
  | 0x7 => .ok (.subn (fieldX w) (fieldY w))
  | 0xE => .ok (.shl (fieldX w) (fieldY w))
  | _ => .error (.unknownFamily8 w)

/-- Family E: `KK` selects (R78). -/
def decodeFamilyE (w : Word) : Except DecodeError Instr :=
  match (fieldKK w).toNat with
  | 0x9E => .ok (.skp (fieldX w))
  | 0xA1 => .ok (.sknp (fieldX w))
  | _ => .error (.unknownFamilyE w)

/-- Family F: `KK` selects (R79). -/
def decodeFamilyF (w : Word) : Except DecodeError Instr :=
  match (fieldKK w).toNat with
  | 0x07 => .ok (.ldVxDT (fieldX w))
  | 0x0A => .ok (.ldVxK (fieldX w))
  | 0x15 => .ok (.ldDTVx (fieldX w))
  | 0x18 => .ok (.ldSTVx (fieldX w))
  | 0x1E => .ok (.addI (fieldX w))
  | 0x29 => .ok (.ldF (fieldX w))
  | 0x33 => .ok (.ldB (fieldX w))
  | 0x55 => .ok (.stRegs (fieldX w))
  | 0x65 => .ok (.ldRegs (fieldX w))
  | _ => .error (.unknownFamilyF w)

/-- Decode of a word: total, and it reads nothing but the word (R74 to R79, R86).
The families 5 and 9 ignore their low nibble (R76). A family is below 16, so the last arm is family F. -/
def decodeWord (w : Word) : Except DecodeError Instr :=
  match fieldF w with
  | 0x0 => decodeFamily0 w
  | 0x1 => .ok (.jp (fieldNNN w))
  | 0x2 => .ok (.call (fieldNNN w))
  | 0x3 => .ok (.seImm (fieldX w) (fieldKK w))
  | 0x4 => .ok (.sneImm (fieldX w) (fieldKK w))
  | 0x5 => .ok (.seReg (fieldX w) (fieldY w))
  | 0x6 => .ok (.ldImm (fieldX w) (fieldKK w))
  | 0x7 => .ok (.addImm (fieldX w) (fieldKK w))
  | 0x8 => decodeFamily8 w
  | 0x9 => .ok (.sneReg (fieldX w) (fieldY w))
  | 0xA => .ok (.ldI (fieldNNN w))
  | 0xB => .ok (.jpV0 (fieldNNN w))
  | 0xC => .ok (.rnd (fieldX w) (fieldKK w))
  | 0xD => .ok (.drw (fieldX w) (fieldY w) (fieldN w))
  | 0xE => decodeFamilyE w
  | _ => decodeFamilyF w

/-- `(hi << 8) | lo`: two bytes as a big-endian word (R54, R71). -/
def wordOfBytes (hi lo : Byte) : Word := BitVec.ofNat 16 (hi.toNat * 256 + lo.toNat)

/-- Decode of the first instruction of a byte sequence, with the bytes after it: the byte at the lower
address is the high byte (R54, R71), and every instruction is 2 bytes (R83). -/
def decodeBytes : List Byte → Except DecodeError (Instr × List Byte)
  | hi :: lo :: rest =>
    match decodeWord (wordOfBytes hi lo) with
    | .ok i => .ok (i, rest)
    | .error e => .error e
  | _ => .error .truncated

/-! ### Encode -/

/-- A word `FNNN`. -/
def wordFNNN (f : Fin 16) (nnn : Addr12) : Word := BitVec.ofNat 16 (f.val * 4096 + nnn.toNat)

/-- A word `FXKK`. -/
def wordFXKK (f : Fin 16) (x : Reg) (kk : Byte) : Word := BitVec.ofNat 16 (f.val * 4096 + x.val * 256 + kk.toNat)

/-- A word `FXYN`. -/
def wordFXYN (f : Fin 16) (x y : Reg) (n : Fin 16) : Word :=
  BitVec.ofNat 16 (f.val * 4096 + x.val * 256 + y.val * 16 + n.val)

/-- The word of an instruction, from the pattern column of R80. The ignored low nibble of 5XY0 and 9XY0 is
written 0, as the pattern has it. -/
def encode : Instr → Word
  | .halt => 0x0000#16
  | .cls => 0x00E0#16
  | .ret => 0x00EE#16
  | .jp nnn => wordFNNN 0x1 nnn
  | .call nnn => wordFNNN 0x2 nnn
  | .seImm x kk => wordFXKK 0x3 x kk
  | .sneImm x kk => wordFXKK 0x4 x kk
  | .seReg x y => wordFXYN 0x5 x y 0x0
  | .ldImm x kk => wordFXKK 0x6 x kk
  | .addImm x kk => wordFXKK 0x7 x kk
  | .ldReg x y => wordFXYN 0x8 x y 0x0
  | .orReg x y => wordFXYN 0x8 x y 0x1
  | .andReg x y => wordFXYN 0x8 x y 0x2
  | .xorReg x y => wordFXYN 0x8 x y 0x3
  | .addReg x y => wordFXYN 0x8 x y 0x4
  | .subReg x y => wordFXYN 0x8 x y 0x5
  | .shr x y => wordFXYN 0x8 x y 0x6
  | .subn x y => wordFXYN 0x8 x y 0x7
  | .shl x y => wordFXYN 0x8 x y 0xE
  | .sneReg x y => wordFXYN 0x9 x y 0x0
  | .ldI nnn => wordFNNN 0xA nnn
  | .jpV0 nnn => wordFNNN 0xB nnn
  | .rnd x kk => wordFXKK 0xC x kk
  | .drw x y n => wordFXYN 0xD x y n
  | .skp x => wordFXKK 0xE x 0x9E#8
  | .sknp x => wordFXKK 0xE x 0xA1#8
  | .ldVxDT x => wordFXKK 0xF x 0x07#8
  | .ldVxK x => wordFXKK 0xF x 0x0A#8
  | .ldDTVx x => wordFXKK 0xF x 0x15#8
  | .ldSTVx x => wordFXKK 0xF x 0x18#8
  | .addI x => wordFXKK 0xF x 0x1E#8
  | .ldF x => wordFXKK 0xF x 0x29#8
  | .ldB x => wordFXKK 0xF x 0x33#8
  | .stRegs x => wordFXKK 0xF x 0x55#8
  | .ldRegs x => wordFXKK 0xF x 0x65#8

/-! ### The opcode map's own columns (R80) -/

/-- The column `mask` of an instruction's row. -/
def Instr.mask : Instr → Word
  | .halt => 0xFFFF#16
  | .cls => 0xFFFF#16
  | .ret => 0xFFFF#16
  | .jp _ => 0xF000#16
  | .call _ => 0xF000#16
  | .seImm _ _ => 0xF000#16
  | .sneImm _ _ => 0xF000#16
  | .seReg _ _ => 0xF000#16
  | .ldImm _ _ => 0xF000#16
  | .addImm _ _ => 0xF000#16
  | .ldReg _ _ => 0xF00F#16
  | .orReg _ _ => 0xF00F#16
  | .andReg _ _ => 0xF00F#16
  | .xorReg _ _ => 0xF00F#16
  | .addReg _ _ => 0xF00F#16
  | .subReg _ _ => 0xF00F#16
  | .shr _ _ => 0xF00F#16
  | .subn _ _ => 0xF00F#16
  | .shl _ _ => 0xF00F#16
  | .sneReg _ _ => 0xF000#16
  | .ldI _ => 0xF000#16
  | .jpV0 _ => 0xF000#16
  | .rnd _ _ => 0xF000#16
  | .drw _ _ _ => 0xF000#16
  | .skp _ => 0xF0FF#16
  | .sknp _ => 0xF0FF#16
  | .ldVxDT _ => 0xF0FF#16
  | .ldVxK _ => 0xF0FF#16
  | .ldDTVx _ => 0xF0FF#16
  | .ldSTVx _ => 0xF0FF#16
  | .addI _ => 0xF0FF#16
  | .ldF _ => 0xF0FF#16
  | .ldB _ => 0xF0FF#16
  | .stRegs _ => 0xF0FF#16
  | .ldRegs _ => 0xF0FF#16

/-- The column `match` of an instruction's row. -/
def Instr.code : Instr → Word
  | .halt => 0x0000#16
  | .cls => 0x00E0#16
  | .ret => 0x00EE#16
  | .jp _ => 0x1000#16
  | .call _ => 0x2000#16
  | .seImm _ _ => 0x3000#16
  | .sneImm _ _ => 0x4000#16
  | .seReg _ _ => 0x5000#16
  | .ldImm _ _ => 0x6000#16
  | .addImm _ _ => 0x7000#16
  | .ldReg _ _ => 0x8000#16
  | .orReg _ _ => 0x8001#16
  | .andReg _ _ => 0x8002#16
  | .xorReg _ _ => 0x8003#16
  | .addReg _ _ => 0x8004#16
  | .subReg _ _ => 0x8005#16
  | .shr _ _ => 0x8006#16
  | .subn _ _ => 0x8007#16
  | .shl _ _ => 0x800E#16
  | .sneReg _ _ => 0x9000#16
  | .ldI _ => 0xA000#16
  | .jpV0 _ => 0xB000#16
  | .rnd _ _ => 0xC000#16
  | .drw _ _ _ => 0xD000#16
  | .skp _ => 0xE09E#16
  | .sknp _ => 0xE0A1#16
  | .ldVxDT _ => 0xF007#16
  | .ldVxK _ => 0xF00A#16
  | .ldDTVx _ => 0xF015#16
  | .ldSTVx _ => 0xF018#16
  | .addI _ => 0xF01E#16
  | .ldF _ => 0xF029#16
  | .ldB _ => 0xF033#16
  | .stRegs _ => 0xF055#16
  | .ldRegs _ => 0xF065#16

/-- `w` lies in the row of `i`: `(w & mask) = match` (R80). -/
def Instr.rowHolds (i : Instr) (w : Word) : Bool := (w &&& i.mask) == i.code

/-- The words of R81, as its four bullets list them: those that match no row of the opcode map. -/
def unknownWord (w : Word) : Bool :=
  (fieldF w == 0x0 && !([0x0000#16, 0x00E0#16, 0x00EE#16].contains w)) ||
  (fieldF w == 0x8 && [0x8, 0x9, 0xA, 0xB, 0xC, 0xD, 0xF].contains (fieldN w).val) ||
  (fieldF w == 0xE && !([0x9E#8, 0xA1#8].contains (fieldKK w))) ||
  (fieldF w == 0xF && !([0x07#8, 0x0A#8, 0x15#8, 0x18#8, 0x1E#8, 0x29#8, 0x33#8, 0x55#8, 0x65#8].contains (fieldKK w)))

/-- A word with the bits that decode ignores cleared: the low nibble of families 5 and 9 (R76). -/
def canonicalWord (w : Word) : Word :=
  if fieldF w = 0x5 ∨ fieldF w = 0x9 then w &&& 0xFFF0#16 else w

/-! ### The two bytes of a word, and the host's numbering -/

/-- The byte of a word that stands at the lower address: bits 15 to 8 (R54). -/
def highByte (w : Word) : Byte := BitVec.ofNat 8 (bitsOf w 15 8)

/-- The byte of a word that stands at the higher address: bits 7 to 0 (R54). -/
def lowByte (w : Word) : Byte := BitVec.ofNat 8 (bitsOf w 7 0)

/-- The word whose low `nbits` bits are those of `w` and whose other bits are 0. -/
def tableWord (nbits w : Nat) : Word := BitVec.ofNat 16 (w % 2 ^ nbits)

/-- What the decoder reads from the table word `w` of `nbits` bits, laid out as memory holds it. -/
def decodeTableWord (nbits w : Nat) : Option Instr :=
  match decodeBytes [highByte (tableWord nbits w), lowByte (tableWord nbits w)] with
  | .ok (i, _) => some i
  | .error _ => none

end Sys2Proof
end

