-- ==== Sys2Proof/Machine/State.lean ====
section
/-! DEFINITION. The machine state (spec/10_state.md R20 to R40), the core's outputs and its pending inputs
(spec/40_cycle.md R100, R101), the run status (R33) with the fatal errors (spec/60_exceptions.md R270), the
reasons a step stops, and the state after initialisation with an empty ROM (R39, R300). -/

namespace Sys2Proof.Machine

/-- The 4096 memory cells (R35), as the list of those that differ from their contents after initialisation
with no ROM: addresses strictly rising, no entry equal to `resetByte` (Ops.lean `Memory.wf`). -/
abbrev Memory := List Host.Cell

/-- The framebuffer, 32 × 64 bits (R31, R101): row `r` is `fb[r]`, and its bit `c` is the pixel `fb[r][c]`, 1 = on. -/
abbrev Framebuffer := Vector (BitVec 64) 32

/-- The framebuffer with every pixel off. -/
def Framebuffer.blank : Framebuffer := Vector.replicate 32 0

/-- Why the engine halted (R33). -/
inductive HaltReason where
  /-- the word 0x0000 was fetched (R106) -/
  | sentinel
  /-- the input collaborator signalled quit at a sync (R110) -/
  | quit
deriving DecidableEq, Repr

/-- A fatal error with the information R270 records for it. -/
inductive FatalError where
  /-- code 1, raised by initialisation: the ROM's length -/
  | oversizedROM (len : Nat)
  /-- code 2, raised by 2NNN at SP = 16 -/
  | stackOverflow (pc : Addr) (w : Word)
  /-- code 3, raised by 00EE at SP = 0 -/
  | stackUnderflow (pc : Addr) (w : Word)
  /-- code 4, raised by fetch (no word), DXYN, FX33, FX55, FX65: the lowest illegal address -/
  | outOfBounds (pc : Addr) (w : Option Word) (addr : Nat)
  /-- code 5, raised by an unknown word under `UNKNOWN_OPCODE_POLICY = fatal` -/
  | unknownOpcode (pc : Addr) (w : Word)
deriving DecidableEq, Repr

/-- The engine's run state, an output of the core (R33, R101). -/
inductive Status where
  | running
  | halted (r : HaltReason)
  | faulted (e : FatalError)
deriving DecidableEq, Repr

/-- The output events of R101: `sync` (R109) and `diag` with the unknown word and its pc (R113). -/
inductive Event where
  | sync
  | diag (pc : Addr) (w : Word)
deriving DecidableEq, Repr

/-- The inputs that one completed cycle samples (R100): `ticks` in every such cycle, `keys_in` and `quit_in`
only when it syncs. -/
structure CycleInput where
  ticks  : Nat
  keysIn : Keys
  quitIn : Bool
deriving DecidableEq, Repr

/-- Why a step stops. Raised by `cycle` alone, never by an instruction. -/
inductive Fault where
  /-- The engine had halted before this step, so no further cycle runs (R111). Safe: no state follows. -/
  | halted (r : HaltReason)
  /-- A fatal error had ended the session before this step, so no further cycle runs (R111, R275 item 4).
  Safe: no state follows. -/
  | faulted (e : FatalError)
deriving DecidableEq, Repr

/-- Reasons to give an instruction no meaning. -/
inductive Refusal where
  /-- Raised by an arm of `exec` whose instruction has no meaning yet; no arm is one. Safe. -/
  | notModelled (mnemonic : String)
deriving DecidableEq, Repr

/-- The whole machine: the members of R20, the outputs that keep their value between cycles (R101), the
model parameters (R9), and the inputs still to come (R100). -/
structure State where
  /-- the model parameters (R9); no step changes them -/
  config  : Config
  /-- memory (R35) -/
  mem     : Memory
  /-- V0 to VF (R21) -/
  v       : Vector Byte 16
  /-- the index register I (R24) -/
  i       : Addr
  /-- the program counter (R25) -/
  pc      : Addr
  /-- the 16 stack entries (R29) -/
  stack   : Vector Addr 16
  /-- the stack depth SP, 0 to 16 (R29) -/
  sp      : Fin 17
  /-- the delay timer DT (R27) -/
  dt      : Byte
  /-- the sound timer ST (R28) -/
  st      : Byte
  /-- the framebuffer (R31) -/
  fb      : Framebuffer
  /-- the key vector, bit k = key k pressed (R32) -/
  key     : Keys
  /-- the run state (R33) -/
  status  : Status
  /-- an FX0A is waiting (R34) -/
  kwait   : Bool
  /-- the keys as FX0A last sampled them (R34) -/
  kprev   : Keys
  /-- the output `fb_out`, which keeps its value between syncs (R101, R109) -/
  fbOut   : Framebuffer
  /-- the output events emitted so far, oldest first (R101) -/
  events  : List Event
  /-- the inputs of the cycles to come, next first; where it ends, free values follow (R100) -/
  inputs  : List CycleInput
  /-- how many cycles have sampled their inputs: the index of the next free value -/
  inputNo : Nat
  /-- the bytes `rand_in` of the CXKK to come, next first; where it ends, free values follow (R100, R180) -/
  rands   : List Byte
  /-- how many CXKK have drawn their byte: the index of the next free value -/
  randNo  : Nat
deriving DecidableEq, Repr

/-- The state after initialisation with an empty ROM and the default parameters (R39, R300, R305): every
value of the table of R39. Memory lists nothing, so it reads as the font and zeros (R39).
The outputs and the input fields, which R39 does not list, are notes/assumptions/4.md, 5.md and 6.md. -/
def State.reset : State where
  config  := Config.default
  mem     := []
  v       := Vector.replicate 16 0
  i       := 0
  pc      := 0x200
  stack   := Vector.replicate 16 0
  sp      := 0
  dt      := 0
  st      := 0
  fb      := Framebuffer.blank
  key     := 0
  status  := .running
  kwait   := false
  kprev   := 0
  fbOut   := Framebuffer.blank
  events  := []
  inputs  := []
  inputNo := 0
  rands   := []
  randNo  := 0

end Sys2Proof.Machine
end

