-- ==== Sys2Proof/Machine/Operands.lean ====
section
/-! DEFINITION. The operand forms of spec/30_encoding.md R73 and the values the instruction rules compute
from them, without a machine state: zero extension, the pc sums of spec/40_cycle.md R105, glyph and key
indices, BCD digits, ALU results, timer subtraction. -/

namespace Sys2Proof.Machine

/-- `zext_16(NNN)` (R73). -/
def zextAddr (nnn : Addr12) : Addr := nnn.setWidth 16

/-- The next word in sequence: `pc + 2` modulo 2^16 (R105). -/
def nextPc (pc : Addr) : Addr := pc + 2

/-- The word after the next: `pc + 4` modulo 2^16, a taken skip (R105). -/
def skipPc (pc : Addr) : Addr := pc + 4

/-- The target of BNNN: `zext_16(NNN) + zext_16(V0)`, not masked to 12 bits (R137). -/
def indexedTarget (nnn : Addr12) (v0 : Byte) : Addr := zextAddr nnn + v0.setWidth 16

/-- The low nibble of a register value: a key index (R250) or a glyph index (R205). -/
def lowNibble (b : Byte) : Nat := b.toNat % 16

/-- The address of a font glyph: `(Vx & 0xF) * 5`, font base 0 (R205). -/
def glyphAddr (b : Byte) : Addr := BitVec.ofNat 16 (lowNibble b * 5)

/-- Whether key `Vx & 0xF` is pressed (R250). -/
def keyPressed (key : Keys) (b : Byte) : Bool := key.getLsbD (lowNibble b)

/-- `v div 100`, `(v div 10) mod 10`, `v mod 10`: hundreds first (R206). -/
def bcdDigits (b : Byte) : List Byte :=
  [BitVec.ofNat 8 (b.toNat / 100), BitVec.ofNat 8 (b.toNat / 10 % 10), BitVec.ofNat 8 (b.toNat % 10)]

/-- `(a + b) mod 256` (R162, R174). -/
def addBytes (a b : Byte) : Byte := BitVec.ofNat 8 (a.toNat + b.toNat)

/-- `(a - b) mod 256` (R175, R177). -/
def subBytes (a b : Byte) : Byte := BitVec.ofInt 8 ((a.toNat : Int) - b.toNat)

/-- `s >> 1` (R176). -/
def shiftRight (s : Byte) : Byte := BitVec.ofNat 8 (s.toNat / 2)

/-- `(s << 1) mod 256` (R178). -/
def shiftLeft (s : Byte) : Byte := BitVec.ofNat 8 (s.toNat * 2)

/-- The operand of a shift: Vx or Vy as `SHIFT_SOURCE` says (R176, R178). -/
def shiftOperand (src : ShiftSource) (vx vy : Byte) : Byte :=
  match src with
  | .vx => vx
  | .vy => vy

/-- The sum of I and a byte as an unbounded integer (R201). -/
def indexSum (i : Addr) (b : Byte) : Nat := i.toNat + b.toNat

/-- I after FX55 and FX65: `(I + X + 1) mod 2^16` (R203, R207, R208). -/
def indexPast (i : Addr) (x : Reg) : Addr := BitVec.ofNat 16 (i.toNat + x.val + 1)

/-- `sat_sub(a, n) = max(a - n, 0)` (R11, R282, R283). -/
def satSub (a : Byte) (n : Nat) : Byte := BitVec.ofNat 8 (a.toNat - n)

/-- The keys that went from released to pressed between two samples: `key & ~kprev` (R254). -/
def newlyPressed (key kprev : Keys) : Keys := key &&& ~~~kprev

/-- The lowest set key index (R254); asked only of a vector with a set bit. -/
def lowestKey (d : Keys) : Nat := ((List.range 16).find? fun k => d.getLsbD k).getD 0

end Sys2Proof.Machine
end

