-- ==== Sys2Proof/Machine/Flags.lean ====
section
/-! DEFINITION. The flag computations of spec/10_state.md R37: each as a condition, written to VF as 0 or 1. -/

namespace Sys2Proof.Machine

/-- A condition as the byte VF receives. -/
def flagByte (c : Bool) : Byte := if c then 1 else 0

/-- 8XY4: the sum passes 255 (R174). -/
def addCarries (a b : Byte) : Bool := decide (a.toNat + b.toNat > 255)

/-- 8XY5 and 8XY7: no borrow, minuend ≥ subtrahend (R175, R177). -/
def noBorrow (minuend subtrahend : Byte) : Bool := decide (minuend.toNat ≥ subtrahend.toNat)

/-- 8XY6: bit 0 of the source (R176). -/
def shiftedOutRight (s : Byte) : Bool := s.getLsbD 0

/-- 8XYE: bit 7 of the source (R178). -/
def shiftedOutLeft (s : Byte) : Bool := s.getLsbD 7

/-- FX1E with `carry_vf`: the sum passes 0xFFF (R201). -/
def indexPassesMemory (i : Addr) (b : Byte) : Bool := decide (indexSum i b > 0xFFF)

end Sys2Proof.Machine
end

