-- ==== Sys2Proof/Machine/Ops.lean ====
section
/-! DEFINITION. The named operations over memory, registers, the stack, the framebuffer, the outputs and the
inputs, and the fatal stop (spec/60_exceptions.md R275), the one way this machine takes an exception:
there is no handler and no return from one (R278, R279). -/

namespace Sys2Proof.Machine

/-! ### Memory (spec/20_memory.md) -/

/-- What an address reads as until something writes it: the font at 0 to 79, zero elsewhere (R39, R52, R301). -/
def resetByte (font : Font) (a : Nat) : Byte := if h : a < 80 then font[a] else 0

/-- The listed byte of an address. -/
def Memory.listed : Memory → Nat → Option Byte
  | [], _ => none
  | (k, b) :: m, a => if k = a then some b else Memory.listed m a

/-- `MemRead(a, 1)` (R11, R58). -/
def Memory.read (font : Font) (m : Memory) (a : Nat) : Byte := (Memory.listed m a).getD (resetByte font a)

/-- The list without any entry of an address. -/
def Memory.erase : Memory → Nat → Memory
  | [], _ => []
  | (k, b) :: m, a => if k = a then Memory.erase m a else (k, b) :: Memory.erase m a

/-- The list with a byte at an address, in rising order. -/
def Memory.insert : Memory → Nat → Byte → Memory
  | [], a, v => [(a, v)]
  | (k, b) :: m, a, v =>
    if a < k then (a, v) :: (k, b) :: m
    else if k = a then (a, v) :: m
    else (k, b) :: Memory.insert m a v

/-- `MemWrite(a, 1, v)` (R11, R58): writing what the address reads as unlisted removes its entry. -/
def Memory.write (font : Font) (m : Memory) (a : Nat) (v : Byte) : Memory :=
  if v = resetByte font a then Memory.erase m a else Memory.insert m a v

/-- Bytes written one after the other at rising addresses, the first at `a` (R54). -/
def Memory.writeList (font : Font) (m : Memory) (a : Nat) : List Byte → Memory
  | [] => m
  | v :: vs => Memory.writeList font (Memory.write font m a v) (a + 1) vs

/-- The addresses strictly rise from `lo`, exist (R50), and no entry equals what its address reads as unlisted. -/
def Memory.wfFrom (font : Font) : Nat → Memory → Bool
  | _, [] => true
  | lo, (k, b) :: m => decide (lo ≤ k) && decide (k < memSize) && decide (b ≠ resetByte font k) && Memory.wfFrom font (k + 1) m

/-- The canonical form of memory: equal memories are equal lists. -/
def Memory.wf (font : Font) (m : Memory) : Bool := Memory.wfFrom font 0 m

/-- Read of one byte. -/
def State.readByte (s : State) (a : Nat) : Byte := Memory.read s.config.font s.mem a

/-- `n` bytes from `a` on, read at rising addresses. -/
def State.readBytes (s : State) (a n : Nat) : List Byte := (List.range n).map fun k => s.readByte (a + k)

/-- Write of bytes from `a` on. -/
def State.writeBytes (s : State) (a : Nat) (vs : List Byte) : State :=
  { s with mem := Memory.writeList s.config.font s.mem a vs }

/-! ### Registers (spec/10_state.md R21 to R28) -/

/-- Read of `V[x]`. -/
def State.getV (s : State) (x : Reg) : Byte := s.v[x]

/-- Write of `V[x]`. -/
def State.setV (s : State) (x : Reg) (b : Byte) : State := { s with v := s.v.set x b }

/-- Write of a flag to VF (R22, R37). -/
def State.setFlag (s : State) (c : Bool) : State := s.setV Reg.vf (flagByte c)

/-- `V[k] <- b` for all `k` below `n` at once, where `f` gives each byte. -/
def State.loadRegs (s : State) (n : Nat) (f : Nat → Byte) : State :=
  { s with v := Vector.ofFn fun k : Fin 16 => if k.val < n then f k.val else s.v[k] }

/-- Write of I. -/
def State.setI (s : State) (a : Addr) : State := { s with i := a }

/-- Write of pc. -/
def State.goto (s : State) (a : Addr) : State := { s with pc := a }

/-- `pc <- pc + 2` (R105). -/
def State.advance (s : State) : State := s.goto (nextPc s.pc)

/-- `pc <- pc + 4` if the condition holds, else `pc <- pc + 2` (R105). -/
def State.skipIf (s : State) (c : Bool) : State := s.goto (if c then skipPc s.pc else nextPc s.pc)

/-- Write of DT. -/
def State.setDT (s : State) (b : Byte) : State := { s with dt := b }

/-- Write of ST. -/
def State.setST (s : State) (b : Byte) : State := { s with st := b }

/-- The output `st_out` is the current ST (R101). -/
def State.stOut (s : State) : Byte := s.st

/-- Write of the key-wait latch (R34). -/
def State.setWait (s : State) (waiting : Bool) (sample : Keys) : State := { s with kwait := waiting, kprev := sample }

/-! ### Stack (spec/10_state.md R29) -/

/-- `stack[SP] <- a; SP <- SP + 1`, for SP < 16. -/
def State.push (s : State) (a : Addr) (h : s.sp.val < 16) : State :=
  { s with stack := s.stack.set s.sp.val a h, sp := ⟨s.sp.val + 1, by omega⟩ }

/-- `SP <- SP - 1`, for SP > 0; the entry is not cleared. -/
def State.pop (s : State) : State := { s with sp := ⟨s.sp.val - 1, by omega⟩ }

/-- The top entry `stack[SP - 1]`, for SP > 0. -/
def State.top (s : State) : Addr := s.stack[s.sp.val - 1]'(by omega)

/-! ### Framebuffer (spec/44_display.md) -/

/-- The pixel at row `r` and column `c`, both wrapped (R230). -/
def Framebuffer.pixel (fb : Framebuffer) (r c : Nat) : Bool :=
  (fb[r % 32]'(Nat.mod_lt _ (by decide))).getLsbD (c % 64)

/-- The framebuffer with that pixel inverted (R230, R232). -/
def Framebuffer.flip (fb : Framebuffer) (r c : Nat) : Framebuffer :=
  fb.set (r % 32) ((fb[r % 32]'(Nat.mod_lt _ (by decide))) ^^^ BitVec.twoPow 64 (c % 64)) (Nat.mod_lt _ (by decide))

/-- A framebuffer and the collision so far, while a sprite is drawn (R232 `fb`, `coll`). -/
structure Canvas where
  fb   : Framebuffer
  coll : Bool
deriving DecidableEq, Repr

/-- One sprite pixel: a 0 bit touches nothing, a 1 bit inverts the pixel and collides where it was on (R232, R234). -/
def drawPixel (p : Canvas) (r c : Nat) (on : Bool) : Canvas :=
  if on then { fb := p.fb.flip r c, coll := p.coll || p.fb.pixel r c } else p

/-- One sprite row: bit 7 of the byte is the leftmost pixel (R233). -/
def drawRow (p : Canvas) (r c : Nat) (b : Byte) : Canvas :=
  (List.range 8).foldl (fun q k => drawPixel q r (c + k) (b.getLsbD (7 - k))) p

/-- The rows of a sprite, downwards from row `r` (R232, R233). -/
def drawRows (p : Canvas) (r c : Nat) : List Byte → Canvas
  | [] => p
  | b :: bs => drawRows (drawRow p r c b) (r + 1) c bs

/-- A sprite drawn on a framebuffer, the collision starting at 0 (R232). -/
def drawSprite (fb : Framebuffer) (r c : Nat) (bytes : List Byte) : Canvas :=
  drawRows { fb := fb, coll := false } r c bytes

/-- Write of the framebuffer. -/
def State.setFb (s : State) (fb : Framebuffer) : State := { s with fb := fb }

/-! ### Status, outputs and the fatal stop -/

/-- The code of a fatal error (R270). -/
def errorCode : FatalError → Nat
  | .oversizedROM _ => 1
  | .stackOverflow _ _ => 2
  | .stackUnderflow _ _ => 3
  | .outOfBounds _ _ _ => 4
  | .unknownOpcode _ _ => 5

/-- Write of the status. -/
def State.setStatus (s : State) (st : Status) : State := { s with status := st }

/-- `raise Fault(code, info)` (R275): the status becomes Faulted and nothing else changes. Every rule that raises
does so before it writes anything, so `s` is the state at the start of the cycle (R57). -/
def State.raise (s : State) (e : FatalError) : State := s.setStatus (.faulted e)

/-- `CheckRange(base, n)` (R202) before `body`: where a byte of `base .. base + n - 1` lies outside memory the
access raises OutOfBoundsMemoryAccess with the lowest illegal address and `body` does not happen (R57). -/
def State.guardRange (s : State) (w : Word) (base n : Nat) (body : State) : State :=
  if base + n - 1 > 0xFFF then s.raise (.outOfBounds s.pc (some w) (max base 0x1000)) else body

/-- Emission of an output event (R101). -/
def State.emit (s : State) (e : Event) : State := { s with events := s.events ++ [e] }

/-! ### Inputs (R100) -/

/-- The byte `rand_in` that the next CXKK draws: supplied, or free (R180). -/
def State.randIn (s : State) : Byte :=
  match s.rands with
  | b :: _ => b
  | [] => Config.freeRand s.randNo

/-- That draw consumed. -/
def State.takeRand (s : State) : State := { s with rands := s.rands.tail, randNo := s.randNo + 1 }

/-- The inputs that the next completed cycle samples: supplied, or free. -/
def State.cycleInput (s : State) : CycleInput :=
  match s.inputs with
  | c :: _ => c
  | [] => { ticks := Config.freeTicks s.inputNo, keysIn := Config.freeKeys s.inputNo, quitIn := Config.freeQuit s.inputNo }

/-- Those inputs consumed. -/
def State.takeInput (s : State) : State := { s with inputs := s.inputs.tail, inputNo := s.inputNo + 1 }

end Sys2Proof.Machine
end

