-- ==== Sys2Proof/Machine/Alu.lean ====
section
/-! DEFINITION. Register file and ALU: 6XKK, 7XKK, 8XY0 to 8XYE, CXKK (spec/42_alu.md R160 to R180).
Operands are read before anything is written, and a flag is written after the result (R160). -/

namespace Sys2Proof.Machine

/-- A result to `V[x]`, then a flag to VF, then the next word (R160). -/
def State.resultThenFlag (s : State) (x : Reg) (b : Byte) (c : Bool) : State :=
  ((s.setV x b).setFlag c).advance

/-- The result of OR, AND, XOR: VF is cleared after it only where `LOGIC_RESETS_VF` says so (R171 to R173). -/
def State.logicResult (s : State) (x : Reg) (b : Byte) : State :=
  if s.config.logicResetsVF then s.resultThenFlag x b false else (s.setV x b).advance

/-- 6XKK LD Vx, byte (R161). -/
def execLdImm (x : Reg) (kk : Byte) (s : State) : Host.Outcome State Fault Refusal :=
  .next (s.setV x kk).advance

/-- 7XKK ADD Vx, byte (R162): no flag. -/
def execAddImm (x : Reg) (kk : Byte) (s : State) : Host.Outcome State Fault Refusal :=
  .next (s.setV x (addBytes (s.getV x) kk)).advance

/-- 8XY0 LD Vx, Vy (R170). -/
def execLdReg (x y : Reg) (s : State) : Host.Outcome State Fault Refusal :=
  .next (s.setV x (s.getV y)).advance

/-- 8XY1 OR Vx, Vy (R171). -/
def execOrReg (x y : Reg) (s : State) : Host.Outcome State Fault Refusal :=
  .next (s.logicResult x (s.getV x ||| s.getV y))

/-- 8XY2 AND Vx, Vy (R172). -/
def execAndReg (x y : Reg) (s : State) : Host.Outcome State Fault Refusal :=
  .next (s.logicResult x (s.getV x &&& s.getV y))

/-- 8XY3 XOR Vx, Vy (R173). -/
def execXorReg (x y : Reg) (s : State) : Host.Outcome State Fault Refusal :=
  .next (s.logicResult x (s.getV x ^^^ s.getV y))

/-- 8XY4 ADD Vx, Vy (R174). -/
def execAddReg (x y : Reg) (s : State) : Host.Outcome State Fault Refusal :=
  .next (s.resultThenFlag x (addBytes (s.getV x) (s.getV y)) (addCarries (s.getV x) (s.getV y)))

/-- 8XY5 SUB Vx, Vy (R175). -/
def execSubReg (x y : Reg) (s : State) : Host.Outcome State Fault Refusal :=
  .next (s.resultThenFlag x (subBytes (s.getV x) (s.getV y)) (noBorrow (s.getV x) (s.getV y)))

/-- The operand of 8XY6 and 8XYE (R176, R178). -/
def State.shiftSource (s : State) (x y : Reg) : Byte :=
  shiftOperand s.config.shiftSource (s.getV x) (s.getV y)

/-- 8XY6 SHR Vx (R176). -/
def execShr (x y : Reg) (s : State) : Host.Outcome State Fault Refusal :=
  .next (s.resultThenFlag x (shiftRight (s.shiftSource x y)) (shiftedOutRight (s.shiftSource x y)))

/-- 8XY7 SUBN Vx, Vy (R177). -/
def execSubn (x y : Reg) (s : State) : Host.Outcome State Fault Refusal :=
  .next (s.resultThenFlag x (subBytes (s.getV y) (s.getV x)) (noBorrow (s.getV y) (s.getV x)))

/-- 8XYE SHL Vx (R178). -/
def execShl (x y : Reg) (s : State) : Host.Outcome State Fault Refusal :=
  .next (s.resultThenFlag x (shiftLeft (s.shiftSource x y)) (shiftedOutLeft (s.shiftSource x y)))

/-- CXKK RND Vx, byte (R180): the draw is consumed whatever the mask. -/
def execRnd (x : Reg) (kk : Byte) (s : State) : Host.Outcome State Fault Refusal :=
  .next (s.takeRand.setV x (s.randIn &&& kk)).advance

end Sys2Proof.Machine
end

