-- ==== Sys2Proof/Machine/Control.lean ====
section
/-! DEFINITION. Control flow: HALT (spec/40_cycle.md R106), 00EE, 1NNN, 2NNN, 3XKK, 4XKK, 5XY0, 9XY0, BNNN
(spec/41_control_flow.md R130 to R140). No transfer checks its target (R138). -/

namespace Sys2Proof.Machine

/-- 0000 HALT (R106): `status <- Halted(Sentinel)`, nothing else is written. -/
def execHalt (s : State) : Host.Outcome State Fault Refusal :=
  .next (s.setStatus (.halted .sentinel))

/-- 00EE RET (R130). -/
def execRet (s : State) : Host.Outcome State Fault Refusal :=
  .next (if s.sp.val = 0 then s.raise (.stackUnderflow s.pc (encode .ret)) else s.pop.goto s.top)

/-- 1NNN JP addr (R131). -/
def execJp (nnn : Addr12) (s : State) : Host.Outcome State Fault Refusal :=
  .next (s.goto (zextAddr nnn))

/-- 2NNN CALL addr (R132). -/
def execCall (nnn : Addr12) (s : State) : Host.Outcome State Fault Refusal :=
  .next (if h : s.sp.val < 16 then (s.push (nextPc s.pc) h).goto (zextAddr nnn)
    else s.raise (.stackOverflow s.pc (encode (.call nnn))))

/-- 3XKK SE Vx, byte (R133). -/
def execSeImm (x : Reg) (kk : Byte) (s : State) : Host.Outcome State Fault Refusal :=
  .next (s.skipIf (s.getV x == kk))

/-- 4XKK SNE Vx, byte (R134). -/
def execSneImm (x : Reg) (kk : Byte) (s : State) : Host.Outcome State Fault Refusal :=
  .next (s.skipIf (s.getV x != kk))

/-- 5XY0 SE Vx, Vy (R135). -/
def execSeReg (x y : Reg) (s : State) : Host.Outcome State Fault Refusal :=
  .next (s.skipIf (s.getV x == s.getV y))

/-- 9XY0 SNE Vx, Vy (R136). -/
def execSneReg (x y : Reg) (s : State) : Host.Outcome State Fault Refusal :=
  .next (s.skipIf (s.getV x != s.getV y))

/-- BNNN JP V0, addr (R137). -/
def execJpV0 (nnn : Addr12) (s : State) : Host.Outcome State Fault Refusal :=
  .next (s.goto (indexedTarget nnn (s.getV 0)))

end Sys2Proof.Machine
end

