-- ==== Sys2Proof/Machine/Display.lean ====
section
/-! DEFINITION. Sprite rasterizer: 00E0, DXYN (spec/44_display.md R230 to R236). -/

namespace Sys2Proof.Machine

/-- 00E0 CLS (R231). -/
def execCls (s : State) : Host.Outcome State Fault Refusal :=
  .next (s.setFb Framebuffer.blank).advance

/-- The sprite of DXYN drawn on the framebuffer: column V[x], row V[y], `n` bytes from I, all read before any
write (R232, R236). -/
def State.spriteDrawn (s : State) (x y : Reg) (n : Fin 16) : Canvas :=
  drawSprite s.fb (s.getV y).toNat (s.getV x).toNat (s.readBytes s.i.toNat n.val)

/-- The pixels of a drawn sprite, then VF, then the next word (R232). -/
def State.showSprite (s : State) (p : Canvas) : State := ((s.setFb p.fb).setFlag p.coll).advance

/-- DXYN DRW Vx, Vy, nibble (R232). With `n = 0` no range is checked and no row drawn, and VF becomes 0 (R235). -/
def execDrw (x y : Reg) (n : Fin 16) (s : State) : Host.Outcome State Fault Refusal :=
  .next (if n.val = 0 then s.showSprite (s.spriteDrawn x y n)
    else s.guardRange (encode (.drw x y n)) s.i.toNat n.val (s.showSprite (s.spriteDrawn x y n)))

end Sys2Proof.Machine
end

