-- ==== Sys2Proof/Machine/IndexMemory.lean ====
section
/-! DEFINITION. Index register and memory: ANNN, FX1E, FX29, FX33, FX55, FX65 (spec/43_index_memory.md R200 to
R208). FX33, FX55 and FX65 check their whole range before any write (R202, R57). -/

namespace Sys2Proof.Machine

/-- ANNN LD I, addr (R200). -/
def execLdI (nnn : Addr12) (s : State) : Host.Outcome State Fault Refusal :=
  .next (s.setI (zextAddr nnn)).advance

/-- FX1E ADD I, Vx (R201), under both values of `FX1E_POLICY`: `carry_vf` writes VF after I, `wrap12` leaves it. -/
def execAddI (x : Reg) (s : State) : Host.Outcome State Fault Refusal :=
  .next (match s.config.fx1e with
    | .carryVF =>
      ((s.setI (BitVec.ofNat 16 (indexSum s.i (s.getV x)))).setFlag (indexPassesMemory s.i (s.getV x))).advance
    | .wrap12 => (s.setI (BitVec.ofNat 16 (indexSum s.i (s.getV x) % 0x1000))).advance)

/-- FX29 LD F, Vx (R205). -/
def execLdF (x : Reg) (s : State) : Host.Outcome State Fault Refusal :=
  .next (s.setI (glyphAddr (s.getV x))).advance

/-- FX33 LD B, Vx (R206). -/
def execLdB (x : Reg) (s : State) : Host.Outcome State Fault Refusal :=
  .next (s.guardRange (encode (.ldB x)) s.i.toNat 3 (s.writeBytes s.i.toNat (bcdDigits (s.getV x))).advance)

/-- The registers V0 to V[x] in order: what FX55 stores (R207). -/
def State.regsUpTo (s : State) (x : Reg) : List Byte := s.v.toList.take (x.val + 1)

/-- FX55 LD [I], Vx (R207). -/
def execStRegs (x : Reg) (s : State) : Host.Outcome State Fault Refusal :=
  .next (s.guardRange (encode (.stRegs x)) s.i.toNat (x.val + 1)
    ((s.writeBytes s.i.toNat (s.regsUpTo x)).setI (indexPast s.i x)).advance)

/-- FX65 LD Vx, [I] (R208). -/
def execLdRegs (x : Reg) (s : State) : Host.Outcome State Fault Refusal :=
  .next (s.guardRange (encode (.ldRegs x)) s.i.toNat (x.val + 1)
    ((s.loadRegs (x.val + 1) fun k => s.readByte (s.i.toNat + k)).setI (indexPast s.i x)).advance)

end Sys2Proof.Machine
end

