-- ==== Sys2Proof/Machine/KeysTimers.lean ====
section
/-! DEFINITION. Keys and timers: EX9E, EXA1, FX07, FX0A, FX15, FX18 (spec/45_keys_timers.md R250 to R256).
Each sees the keys of the last sync and the timers from before this cycle's decay. -/

namespace Sys2Proof.Machine

/-- EX9E SKP Vx (R251). -/
def execSkp (x : Reg) (s : State) : Host.Outcome State Fault Refusal :=
  .next (s.skipIf (keyPressed s.key (s.getV x)))

/-- EXA1 SKNP Vx (R252). -/
def execSknp (x : Reg) (s : State) : Host.Outcome State Fault Refusal :=
  .next (s.skipIf (!keyPressed s.key (s.getV x)))

/-- FX07 LD Vx, DT (R253). -/
def execLdVxDT (x : Reg) (s : State) : Host.Outcome State Fault Refusal :=
  .next (s.setV x s.dt).advance

/-- A waiting FX0A (R254): the first execution starts the wait, a later one ends it on a key-down transition
with the lowest such key in V[x], and otherwise samples the keys again; a wait keeps pc where it is. -/
def State.waitKey (s : State) (x : Reg) : State :=
  if s.kwait then
    if newlyPressed s.key s.kprev = 0 then s.setWait true s.key
    else ((s.setV x (BitVec.ofNat 8 (lowestKey (newlyPressed s.key s.kprev)))).setWait false s.kprev).advance
  else s.setWait true s.key

/-- FX0A LD Vx, K (R254), under both values of `FX0A_MODE`. -/
def execLdVxK (x : Reg) (s : State) : Host.Outcome State Fault Refusal :=
  .next (match s.config.fx0a with
    | .nop => s.advance
    | .block => s.waitKey x)

/-- FX15 LD DT, Vx (R255). -/
def execLdDTVx (x : Reg) (s : State) : Host.Outcome State Fault Refusal :=
  .next (s.setDT (s.getV x)).advance

/-- FX18 LD ST, Vx (R256). -/
def execLdSTVx (x : Reg) (s : State) : Host.Outcome State Fault Refusal :=
  .next (s.setST (s.getV x)).advance

end Sys2Proof.Machine
end

