-- ==== Sys2Proof/Machine/Init.lean ====
section
/-! DEFINITION. Initialisation, the core's only reset (spec/70_reset_and_hazards.md R300 to R306). -/

namespace Sys2Proof.Machine

/-- Steps 1 and 2 of R300: all state zero, `pc` too, and the font in memory, which memory reads as with nothing
listed. -/
def initZeroed (cfg : Config) : State := { State.reset with config := cfg, pc := 0 }

/-- `Init(rom)` (R300). A ROM over 3584 bytes is rejected with no byte copied, and step 5 is not reached (R303);
any other is placed from 0x200 on (R302), pc becomes 0x200 and the status Running. -/
def State.init (cfg : Config) (rom : List Byte) : State :=
  if romFits rom then (((initZeroed cfg).writeBytes programBase rom).goto 0x200).setStatus .running
  else (initZeroed cfg).setStatus (.faulted (.oversizedROM rom.length))

end Sys2Proof.Machine
end

