-- ==== Sys2Proof/Machine/Cycle.lean ====
section
/-! DEFINITION. One cycle of the Cycle Driver (spec/40_cycle.md R104 to R113; timers: spec/60_exceptions.md
R282, R283). -/

namespace Sys2Proof.Machine

/-- What the fetch finds. -/
inductive Fetched where
  | word (w : Word)
  | outside (addr : Nat)
deriving DecidableEq, Repr

/-- Step (a), the fetch: big-endian from pc and pc + 1, odd or even (R54, R56, R71); `pc > 0xFFE` is outside
memory, with the lowest illegal address (R108). -/
def State.fetch (s : State) : Fetched :=
  if s.pc.toNat > 0xFFE then .outside (max s.pc.toNat 0x1000)
  else .word (wordOfBytes (s.readByte s.pc.toNat) (s.readByte (s.pc.toNat + 1)))

/-- An unknown word (R107). -/
def State.handleUnknown (s : State) (w : Word) : State :=
  match s.config.unknownOpcode with
  | .nop => (s.emit (.diag s.pc w)).advance
  | .fatal => s.raise (.unknownOpcode s.pc w)

/-- Steps (c) and (d): both timers less the elapsed ticks, clamped at 0 (R282, R283). -/
def State.decay (s : State) (ticks : Nat) : State :=
  { s with dt := satSub s.dt ticks, st := satSub s.st ticks }

/-- Step (e): the framebuffer goes out, the keys come in, and quit halts (R109, R110). -/
def State.sync (s : State) (c : CycleInput) : State :=
  let t := ({ s with fbOut := s.fb, key := c.keysIn }).emit .sync
  if c.quitIn then t.setStatus (.halted .quit) else t

/-- Steps (c) to (e) with the cycle's inputs; the sync only if at least one tick elapsed (R104). -/
def State.sampleInputs (s : State) : State :=
  let t := s.takeInput.decay s.cycleInput.ticks
  if s.cycleInput.ticks ≥ 1 then t.sync s.cycleInput else t

/-- The end of a cycle: a cycle that halted at the sentinel or raised stops at once (R104, R106, R275). -/
def State.endCycle (s : State) : State := if s.status = .running then s.sampleInputs else s

/-- The end of the cycle after an instruction that answered a next state. -/
def finish : Host.Outcome State Fault Refusal → Host.Outcome State Fault Refusal
  | .next t => .next t.endCycle
  | .fault f => .fault f
  | .refused r => .refused r

/-- The decoded word executed, or handled as unknown (R104, R107). -/
def State.runWord (s : State) (w : Word) : Host.Outcome State Fault Refusal :=
  match decodeWord w with
  | .ok i => finish (exec i s)
  | .error _ => finish (.next (s.handleUnknown w))

/-- One cycle (R104). From Halted and Faulted no further cycle runs (R111): the step stops with that reason. -/
def cycle (s : State) : Host.Outcome State Fault Refusal :=
  match s.status with
  | .halted r => .fault (.halted r)
  | .faulted e => .fault (.faulted e)
  | .running =>
    match s.fetch with
    | .outside a => .next (s.raise (.outOfBounds s.pc none a))
    | .word w => s.runWord w

/-- The state with the table word `w` where the next fetch reads it: its high byte at pc (R54). A state from
which no cycle runs or whose pc is outside memory gets the status and the pc that the fetch needs. -/
def State.placeWord (s : State) (w : Word) : State :=
  let t := (s.setStatus .running).goto (if s.pc.toNat > 0xFFE then 0x200 else s.pc)
  t.writeBytes t.pc.toNat [highByte w, lowByte w]

end Sys2Proof.Machine
end

