-- ==== Sys2Proof/Machine/Step.lean ====
section
/-! DEFINITION. One step of the model is one cycle (spec/40_cycle.md R104), and where an instruction is placed
so that the next step runs it. -/

namespace Sys2Proof.Machine

/-- One step: one cycle. -/
def step (s : State) : Host.Outcome State Fault Refusal := cycle s

/-- `s` with the table word `w` placed where the next fetch reads it (notes/assumptions/8.md). -/
def State.withFetchWord (s : State) (nbits w : Nat) : State := s.placeWord (tableWord nbits w)

end Sys2Proof.Machine
end

