-- ==== Sys2Proof/Safety.lean ====
section
/-! DEFINITION. What a safe run is, in the terms claims use: the invariants of spec/10_state.md R40 and the
rules they come from, and the states inside one cycle that the rules of spec/40_cycle.md R104 speak of. -/

namespace Sys2Proof.Machine

/-- Memory is in its canonical form, every listed address is one of the 4096 (R35). -/
def State.memoryCanonical (s : State) : Prop := Memory.wf s.config.font s.mem = true

/-- Every live stack entry is a return address from 0x0002 to 0x1000 (R30). -/
def State.stackInRange (s : State) : Prop :=
  ∀ k : Fin 16, k.val < s.sp.val → 2 ≤ s.stack[k].toNat ∧ s.stack[k].toNat ≤ 0x1000

/-- A set key-wait latch means that an FX0A in block mode stands at pc, to be executed again (R34, R254). -/
def State.waitsAtFX0A (s : State) : Prop :=
  s.kwait = true → s.config.fx0a = .block ∧ ∃ w x, s.fetch = .word w ∧ decodeWord w = .ok (.ldVxK x)

/-- A safe state: no fatal error has ended the session (R33, R275). -/
def State.notFaulted (s : State) : Prop := ∀ e, s.status ≠ .faulted e

/-- `t` is the state after steps (a) and (b) of the cycle of `s` (R104): the word at pc fetched, and executed or
handled as unknown. -/
def State.executesTo (s t : State) : Prop :=
  s.status = .running ∧ ∃ w, s.fetch = .word w ∧
    ((∃ i, decodeWord w = .ok i ∧ exec i s = .next t) ∨ ((∃ e, decodeWord w = .error e) ∧ t = s.handleUnknown w))

/-- The cycle that completes: after step (b) the engine still runs, so steps (c) to (e) follow (R104). -/
def State.completesWith (s t : State) : Prop := s.executesTo t ∧ t.status = .running

/-- Pixel (r, c) lies under a 1 bit of the sprite of DXYN in state `s` (R230, R232, R233): bit 7 - j of byte k is at
row Vy + k and column Vx + j, wrapped. -/
def State.spriteCovers (s : State) (x y : Reg) (n : Fin 16) (r c : Nat) : Prop :=
  ∃ k j, k < n.val ∧ j < 8 ∧ r = ((s.getV y).toNat + k) % 32 ∧ c = ((s.getV x).toNat + j) % 64 ∧
    (s.readByte (s.i.toNat + k)).getLsbD (7 - j) = true

end Sys2Proof.Machine
end

