-- ==== Sys2Proof/Certificates/Slice0/Obligations.lean ====
section
/-! DEFINITION. The statements for the provers. Each docstring names the rules of spec/ it formalises; where a
clause rests on a decision that the spec marks as its own (spec/92_eei_decisions.md) or on an entry of
notes/assumptions/, the docstring says so. An instruction statement gives the whole next state: `t = s` with the
fields that change replaced, so every other register, flag, timer, memory byte, pixel, key and output is unchanged. -/

open Sys2Proof Sys2Proof.Machine

/-! ### Encoding -/

/-- R70, R72, R80: every well-formed instruction, with every operand value its fields admit, is what its own word
decodes to, and that word lies in its row of the opcode map. -/
def Obligations.DecodeOfEncodeIsTheInstruction : Prop :=
  ∀ i : Instr, i.wellFormed = true → decodeWord (encode i) = .ok i ∧ i.rowHolds (encode i) = true

/-- The other direction: a word that decodes is the encoding of what it decodes to, but for the low nibble that
families 5 and 9 ignore (R76, decision D6). -/
def Obligations.EncodeOfDecodeIsTheCanonicalWord : Prop :=
  ∀ (w : Word) (i : Instr), decodeWord w = .ok i → encode i = canonicalWord w

/-- R80: decode by families (R74 to R79) agrees with the columns match and mask of the opcode map: the decoded
instruction's row holds, and where a row holds the word decodes into that row. -/
def Obligations.DecodeFollowsTheOpcodeMap : Prop :=
  (∀ (w : Word) (i : Instr), decodeWord w = .ok i → i.rowHolds w = true) ∧
  (∀ (w : Word) (i : Instr), i.rowHolds w = true →
    ∃ j, decodeWord w = .ok j ∧ j.mask = i.mask ∧ j.code = i.code)

/-- R81, R86: decode rejects exactly the words that the four bullets of R81 list. -/
def Obligations.DecodeRejectsExactlyTheUnknownWords : Prop :=
  ∀ w : Word, (∃ e, decodeWord w = .error e) ↔ unknownWord w = true

/-- Words written out from the encodings of R80, at least one of each of the sixteen families (R13, R74), decode to
their instructions. -/
def Obligations.SampleWordsDecode : Prop :=
  decodeWord 0b0000000000000000#16 = .ok .halt ∧
  decodeWord 0b0000000011101110#16 = .ok .ret ∧
  decodeWord 0b0001001000000100#16 = .ok (.jp 0x204) ∧
  decodeWord 0b0010001000010000#16 = .ok (.call 0x210) ∧
  decodeWord 0b0011000000000101#16 = .ok (.seImm 0 0x05) ∧
  decodeWord 0b0100111100000001#16 = .ok (.sneImm 15 0x01) ∧
  decodeWord 0b0101000100101111#16 = .ok (.seReg 1 2) ∧
  decodeWord 0b0110101000000010#16 = .ok (.ldImm 10 0x02) ∧
  decodeWord 0b0111000000000001#16 = .ok (.addImm 0 0x01) ∧
  decodeWord 0b1000001000110101#16 = .ok (.subReg 2 3) ∧
  decodeWord 0b1001000100100000#16 = .ok (.sneReg 1 2) ∧
  decodeWord 0b1010001100000000#16 = .ok (.ldI 0x300) ∧
  decodeWord 0b1011001100000000#16 = .ok (.jpV0 0x300) ∧
  decodeWord 0b1100001100001111#16 = .ok (.rnd 3 0x0F) ∧
  decodeWord 0b1101000000010010#16 = .ok (.drw 0 1 2) ∧
  decodeWord 0b1110000110100001#16 = .ok (.sknp 1) ∧
  decodeWord 0b1111001001100101#16 = .ok (.ldRegs 2)

/-- R71: the fetched word is `(MemRead(pc, 1) << 8) | MemRead(pc + 1, 1)`. -/
def Obligations.FetchAssemblesABigEndianWord : Prop :=
  ∀ s : State, s.pc.toNat ≤ 0xFFE → ∃ w, s.fetch = .word w ∧
    w.toNat = 256 * (s.readByte s.pc.toNat).toNat + (s.readByte (s.pc.toNat + 1)).toNat

/-! ### The cycle -/

/-- R104, R114: when the bytes at pc decode to an instruction, the step is exec of it, followed by steps (c) to (e)
if the engine still runs, and by nothing if it halted or raised. -/
def Obligations.StepRunsTheDecodedInstruction : Prop :=
  ∀ (s : State) (i : Instr), s.status = .running → s.pc.toNat ≤ 0xFFE →
    decodeBytes [s.readByte s.pc.toNat, s.readByte (s.pc.toNat + 1)] = .ok (i, []) →
    ∃ t, exec i s = .next t ∧
      (t.status = .running → step s = .next t.sampleInputs) ∧ (t.status ≠ .running → step s = .next t)

/-- R108 (decision D3): a fetch with pc above 0xFFE raises OutOfBoundsMemoryAccess with the lowest illegal address,
no word is recorded, and nothing else changes. -/
def Obligations.FetchOutsideMemoryRaises : Prop :=
  ∀ s : State, s.status = .running → s.pc.toNat > 0xFFE →
    step s = .next { s with status := .faulted (.outOfBounds s.pc none (if s.pc.toNat = 0xFFF then 0x1000 else s.pc.toNat)) }

/-- R111 (decisions D16, D17), and progress: a step answers no next state exactly where the engine had stopped, and
it refuses nothing. That the stop is a fault of the step is the model's choice (notes/assumptions/7.md). -/
def Obligations.StepStopsExactlyWhenTheEngineHasStopped : Prop :=
  ∀ s : State,
    (s.status = .running ↔ ∃ t, step s = .next t) ∧
    (∀ r, s.status = .halted r → step s = .fault (.halted r)) ∧
    (∀ e, s.status = .faulted e → step s = .fault (.faulted e)) ∧
    (∀ r, step s ≠ .refused r)

/-- R106 (decision D16): HALT, and the cycle that fetches 0x0000, write the status and nothing else: no timer decays,
no sync happens, no input is sampled, pc stays. -/
def Obligations.HaltSentinelStopsTheEngine : Prop :=
  ∀ s : State, exec .halt s = .next { s with status := .halted .sentinel } ∧
    (s.status = .running → s.fetch = .word 0 → step s = .next { s with status := .halted .sentinel })

/-- R107 (decision D5): an unknown word under `nop` moves pc past it and emits `diag(pc, w)`, and the cycle goes on;
under `fatal` it raises UnknownOpcode. That an emitted event is appended to the list `events` is the model's choice
(notes/assumptions/6.md), and so is the record in which the cycle's inputs come in (notes/assumptions/2.md). -/
def Obligations.UnknownWordFollowsThePolicy : Prop :=
  ∀ (s : State) (w : Word), s.status = .running → s.fetch = .word w → unknownWord w = true →
    (s.config.unknownOpcode = .nop →
      step s = .next ({ s with pc := s.pc + 2, events := s.events ++ [Event.diag s.pc w] }).sampleInputs) ∧
    (s.config.unknownOpcode = .fatal → step s = .next { s with status := .faulted (.unknownOpcode s.pc w) })

/-- R275 (decisions D10, D17): whatever raises, the state after the cycle is the state before it but for the status. -/
def Obligations.FatalStopDiscardsTheCycle : Prop :=
  ∀ (s t : State) (e : FatalError), step s = .next t → t.status = .faulted e →
    t = { s with status := .faulted e }

/-- R270, R274 (decisions D3, D5, D10, D29): which words raise which error, when, and what is recorded. -/
def Obligations.OnlyTheListedErrorsAreRaised : Prop :=
  ∀ (s t : State) (e : FatalError), step s = .next t → t.status = .faulted e →
    (s.pc.toNat > 0xFFE ∧ e = .outOfBounds s.pc none (max s.pc.toNat 0x1000)) ∨
    ∃ w, s.fetch = .word w ∧
      ((∃ nnn, decodeWord w = .ok (.call nnn) ∧ s.sp = 16 ∧ e = .stackOverflow s.pc w) ∨
       (decodeWord w = .ok .ret ∧ s.sp = 0 ∧ e = .stackUnderflow s.pc w) ∨
       ((∃ x y n, decodeWord w = .ok (.drw x y n) ∧ 1 ≤ n.val ∧ s.i.toNat + n.val > 0x1000) ∧
          e = .outOfBounds s.pc (some w) (max s.i.toNat 0x1000)) ∨
       ((∃ x, decodeWord w = .ok (.ldB x) ∧ s.i.toNat + 3 > 0x1000) ∧
          e = .outOfBounds s.pc (some w) (max s.i.toNat 0x1000)) ∨
       ((∃ x, (decodeWord w = .ok (.stRegs x) ∨ decodeWord w = .ok (.ldRegs x)) ∧ s.i.toNat + x.val + 1 > 0x1000) ∧
          e = .outOfBounds s.pc (some w) (max s.i.toNat 0x1000)) ∨
       (unknownWord w = true ∧ s.config.unknownOpcode = .fatal ∧ e = .unknownOpcode s.pc w))

/-- R282, R283: in every cycle that completes, after the instruction, `DT <- sat_sub(DT, ticks)` and
`ST <- sat_sub(ST, ticks)`, where `ticks` is that cycle's input. -/
def Obligations.TimersDecayByTheElapsedTicks : Prop :=
  ∀ s t : State, s.completesWith t → ∃ u, step s = .next u ∧
    u.dt.toNat = t.dt.toNat - s.cycleInput.ticks ∧ u.st.toNat = t.st.toNat - s.cycleInput.ticks

/-- R104 step (e), R109, R110 (decisions D18, D28): the rest of a completed cycle. With no tick nothing goes out or
comes in; with at least one the framebuffer goes out, one sync is emitted, the keys come in, and quit halts. The cycle
consumes its inputs (notes/assumptions/2.md), and all else is as the instruction left it. -/
def Obligations.SyncHappensExactlyAtATick : Prop :=
  ∀ s t : State, s.completesWith t → ∃ u, step s = .next u ∧
    u = { t with dt := u.dt, st := u.st, inputs := s.inputs.tail, inputNo := s.inputNo + 1,
                 fbOut := u.fbOut, key := u.key, events := u.events, status := u.status } ∧
    (s.cycleInput.ticks = 0 →
      u.fbOut = s.fbOut ∧ u.key = s.key ∧ u.events = t.events ∧ u.status = .running) ∧
    (s.cycleInput.ticks ≥ 1 →
      u.fbOut = t.fb ∧ u.key = s.cycleInput.keysIn ∧ u.events = t.events ++ [.sync] ∧
      u.status = if s.cycleInput.quitIn then .halted .quit else .running)

/-- R103: inputs change core state only at `ticks`, `keys_in`, `quit_in` in the end of a cycle and `rand_in` inside
CXKK: what an instruction does is the same whatever inputs are to come (whatever byte is to come too, for every
instruction but CXKK), it leaves the key vector alone, and a step changes the key vector only by loading `keys_in`, and
halts by `quit_in` only, at a tick. The fields `inputs`, `inputNo`, `rands` and `randNo`, through which the inputs come
in, are the model's own (notes/assumptions/2.md, 3.md and 4.md), and so are the clauses on them. -/
def Obligations.InputsActOnlyAtTheirSamplingPoints : Prop :=
  (∀ (i : Instr) (s t : State) (c : List CycleInput) (k : Nat), exec i s = .next t →
    t.key = s.key ∧ t.inputs = s.inputs ∧ t.inputNo = s.inputNo ∧
    exec i { s with inputs := c, inputNo := k } = .next { t with inputs := c, inputNo := k }) ∧
  (∀ (i : Instr) (s t : State) (b : List Byte) (k : Nat), exec i s = .next t → (∀ x kk, i ≠ .rnd x kk) →
    t.rands = s.rands ∧ t.randNo = s.randNo ∧
    exec i { s with rands := b, randNo := k } = .next { t with rands := b, randNo := k }) ∧
  (∀ s t : State, step s = .next t →
    (t.key = s.key ∨ (1 ≤ s.cycleInput.ticks ∧ t.key = s.cycleInput.keysIn)) ∧
    (t.status = .halted .quit → 1 ≤ s.cycleInput.ticks ∧ s.cycleInput.quitIn = true))

/-! ### Initialisation -/

/-- R302: a ROM of at most 3584 bytes is placed from 0x200 on, the rest of memory stays 0, and a fetch past the end of
the ROM halts (an empty ROM in its first cycle, the case p = 0x200). -/
def Obligations.RomIsPlacedAtTheProgramBase : Prop :=
  ∀ (cfg : Config) (rom : List Byte), rom.length ≤ 3584 →
    (∀ k, (h : k < rom.length) → (State.init cfg rom).readByte (0x200 + k) = rom[k]) ∧
    (∀ a, 0x200 + rom.length ≤ a → a < 4096 → (State.init cfg rom).readByte a = 0) ∧
    (∀ p : Addr, 0x200 + rom.length ≤ p.toNat → p.toNat ≤ 0xFFE →
      step { State.init cfg rom with pc := p } = .next { State.init cfg rom with pc := p, status := .halted .sentinel })

/-- R39, R300, R305 (decisions D14, D24, D37): the values initialisation leaves, memory below the program included; with
an empty ROM and the default parameters it is `State.reset` (notes/assumptions/8.md). -/
def Obligations.InitialisationLeavesTheListedValues : Prop :=
  State.init Config.default [] = State.reset ∧
  ∀ (cfg : Config) (rom : List Byte), rom.length ≤ 3584 →
    let s := State.init cfg rom
    s.config = cfg ∧ (∀ r, s.getV r = 0) ∧ s.i = 0 ∧ s.pc = 0x200 ∧ (∀ k : Fin 16, s.stack[k] = 0) ∧ s.sp = 0 ∧
    s.dt = 0 ∧ s.st = 0 ∧ (∀ r c, s.fb.pixel r c = false) ∧ s.key = 0 ∧ s.status = .running ∧
    s.kwait = false ∧ s.kprev = 0 ∧
    (∀ a, (h : a < 80) → s.readByte a = cfg.font[a]) ∧ (∀ a, 80 ≤ a → a < 0x200 → s.readByte a = 0)

/-- R303, R271 (decision D24): a longer ROM is rejected with OversizedROM, no ROM byte is copied and no cycle runs. That a
step taken there answers a fault with the error is the model's choice (notes/assumptions/7.md). -/
def Obligations.OversizedRomIsRejected : Prop :=
  ∀ (cfg : Config) (rom : List Byte), rom.length > 3584 →
    (State.init cfg rom).status = .faulted (.oversizedROM rom.length) ∧
    (∀ a, 80 ≤ a → a < 4096 → (State.init cfg rom).readByte a = 0) ∧
    step (State.init cfg rom) = .fault (.faulted (.oversizedROM rom.length))

/-! ### Invariants that every step keeps -/

/-- Memory keeps its canonical form and never lists an address outside the 4096 (R35, R50; the form itself is the
model's, notes/assumptions/9.md). -/
def Obligations.StepKeepsMemoryCanonical : Prop :=
  ∀ s t : State, s.memoryCanonical → step s = .next t → t.memoryCanonical

/-- R30: every live stack entry is a value from 0x0002 to 0x1000. -/
def Obligations.StepKeepsStackEntriesInRange : Prop :=
  ∀ s t : State, s.stackInRange → step s = .next t → t.stackInRange

/-- R34, R254 (decision D14): while the key-wait latch is set, an FX0A in block mode stands at pc. -/
def Obligations.StepKeepsTheWaitAtItsFX0A : Prop :=
  ∀ s t : State, s.waitsAtFX0A → step s = .next t → t.waitsAtFX0A

/-- The three invariants hold after every initialisation (R300), and at `State.reset`, which is one with an empty ROM
(notes/assumptions/8.md). The canonical form of memory is the model's (notes/assumptions/9.md). -/
def Obligations.InitialisationMeetsTheInvariants : Prop :=
  (State.reset.memoryCanonical ∧ State.reset.stackInRange ∧ State.reset.waitsAtFX0A) ∧
  ∀ (cfg : Config) (rom : List Byte),
    (State.init cfg rom).memoryCanonical ∧ (State.init cfg rom).stackInRange ∧ (State.init cfg rom).waitsAtFX0A

/-! ### Who writes what -/

/-- R24, R37, R38: the registers and I. A general register is written only as a named destination, as V0 to Vx by
FX65, or as VF by the instructions of R37; I only by ANNN, FX1E, FX29, FX55, FX65. -/
def Obligations.RegistersAreWrittenOnlyByTheirWriters : Prop :=
  ∀ (i : Instr) (s t : State), exec i s = .next t →
    (∀ r, t.getV r ≠ s.getV r →
      (∃ kk, i = .ldImm r kk ∨ i = .addImm r kk ∨ i = .rnd r kk) ∨ i = .ldVxDT r ∨ i = .ldVxK r ∨
      (∃ y, i = .ldReg r y ∨ i = .orReg r y ∨ i = .andReg r y ∨ i = .xorReg r y ∨ i = .addReg r y ∨
        i = .subReg r y ∨ i = .shr r y ∨ i = .subn r y ∨ i = .shl r y) ∨
      (∃ x, r ≤ x ∧ i = .ldRegs x) ∨
      (r = Reg.vf ∧ ∃ x y,
        (i = .addReg x y ∨ i = .subReg x y ∨ i = .shr x y ∨ i = .subn x y ∨ i = .shl x y ∨ (∃ n, i = .drw x y n) ∨
        (i = .addI x ∧ s.config.fx1e = .carryVF) ∨
        ((i = .orReg x y ∨ i = .andReg x y ∨ i = .xorReg x y) ∧ s.config.logicResetsVF = true)))) ∧
    (t.i ≠ s.i → (∃ nnn, i = .ldI nnn) ∨ ∃ x, i = .addI x ∨ i = .ldF x ∨ i = .stRegs x ∨ i = .ldRegs x)

/-- R31, R32, R38, R50, R30, R27, R28, R33, R34, R9, R101: every other piece of state but pc. Memory is written only by
FX33 and FX55, the framebuffer only by 00E0 and DXYN, the stack only by 2NNN and 00EE, DT by FX15, ST by FX18, the latch
by FX0A, the status by HALT and by the six instructions that can raise, and no instruction writes the key vector, the
parameters, `fb_out` or the events. The list `events` and the input fields are the model's own (notes/assumptions/2.md,
3.md and 6.md): CXKK consumes a byte, and no instruction consumes a cycle's inputs. -/
def Obligations.OtherStateIsWrittenOnlyByItsWriters : Prop :=
  ∀ (i : Instr) (s t : State), exec i s = .next t →
    (t.mem ≠ s.mem → ∃ x, i = .ldB x ∨ i = .stRegs x) ∧
    (t.fb ≠ s.fb → i = .cls ∨ ∃ x y n, i = .drw x y n) ∧
    (t.sp ≠ s.sp → i = .ret ∨ ∃ nnn, i = .call nnn) ∧ (t.stack ≠ s.stack → ∃ nnn, i = .call nnn) ∧
    (t.dt ≠ s.dt → ∃ x, i = .ldDTVx x) ∧ (t.st ≠ s.st → ∃ x, i = .ldSTVx x) ∧
    (t.kwait ≠ s.kwait ∨ t.kprev ≠ s.kprev → ∃ x, i = .ldVxK x) ∧
    (t.status ≠ s.status → i = .halt ∨ i = .ret ∨ (∃ nnn, i = .call nnn) ∨ (∃ x y n, i = .drw x y n) ∨
      ∃ x, i = .ldB x ∨ i = .stRegs x ∨ i = .ldRegs x) ∧
    t.key = s.key ∧ t.config = s.config ∧ t.fbOut = s.fbOut ∧ t.events = s.events ∧
    (t.rands ≠ s.rands ∨ t.randNo ≠ s.randNo → ∃ x kk, i = .rnd x kk) ∧
    t.inputs = s.inputs ∧ t.inputNo = s.inputNo

/-- R28 (decision D27), and for the outputs R101 and R113: no instruction reads ST, `fb_out` or the events (the list
`events` is the model's form of them, notes/assumptions/6.md): two states that differ only there
take every instruction to states that agree everywhere else, and keep the difference unless FX18 writes ST. -/
def Obligations.SoundTimerAndOutputsAreNeverRead : Prop :=
  ∀ (i : Instr) (s t : State) (b : Byte) (f : Framebuffer) (es : List Event), exec i s = .next t →
    exec i { s with st := b, fbOut := f, events := es } =
      .next { t with st := (match i with | .ldSTVx x => s.getV x | _ => b), fbOut := f, events := es }

/-- R29, U18 (decision D30): no instruction can read a stale stack entry: two states whose live entries agree take
every instruction to states that agree but for stale entries. -/
def Obligations.StaleStackEntriesAreNeverRead : Prop :=
  ∀ (i : Instr) (s t : State) (stk : Vector Addr 16),
    (∀ k : Fin 16, k.val < s.sp.val → stk[k] = s.stack[k]) → exec i s = .next t →
    ∃ stk' : Vector Addr 16, exec i { s with stack := stk } = .next { t with stack := stk' } ∧
      ∀ k : Fin 16, k.val < t.sp.val → stk'[k] = t.stack[k]

/-! ### Control flow -/

/-- R130 (decision D1): RET pops the top entry into pc and leaves the entries; on an empty stack it raises
StackUnderflow with its pc and word, and nothing else changes. -/
def Obligations.RetPopsTheReturnAddress : Prop :=
  ∀ s : State,
    (∀ (k : Fin 16), s.sp.val = k.val + 1 → ∃ t, exec .ret s = .next t ∧
      t = { s with sp := t.sp, pc := s.stack[k] } ∧ t.sp.val = k.val) ∧
    (s.sp = 0 → exec .ret s = .next { s with status := .faulted (.stackUnderflow s.pc 0x00EE) })

/-- R130 (decision D1): RET completes in every state with a non-empty stack: pc is the entry below SP, SP goes down by one,
everything else stays, the status too; and a cycle that fetches 00EE in such a state goes on with that pc and SP. -/
def Obligations.RetCompletesOnANonEmptyStack : Prop :=
  ∀ s : State, 0 < s.sp.val →
    ∃ t, exec .ret s = .next t ∧ t = { s with sp := t.sp, pc := t.pc } ∧ t.sp.val + 1 = s.sp.val ∧
      (∀ k : Fin 16, k.val + 1 = s.sp.val → t.pc = s.stack[k]) ∧
      (s.status = .running → s.fetch = .word 0x00EE →
        ∃ u, step s = .next u ∧ u.pc = t.pc ∧ u.sp = t.sp ∧ u.stack = s.stack)

/-- R131: JP writes the zero-extended NNN to pc and nothing else; the fetch at the target faults only for 0xFFF. -/
def Obligations.JumpGoesToItsAddress : Prop :=
  ∀ (nnn : Addr12) (s : State), ∃ t, exec (.jp nnn) s = .next t ∧ t = { s with pc := t.pc } ∧
    t.pc.toNat = nnn.toNat ∧ ((∃ a, t.fetch = .outside a) ↔ nnn = 0xFFF)

/-- R132, R272 (decisions D1, D2): CALL pushes pc + 2 and jumps; with 16 entries held it raises StackOverflow with its
pc and word, and nothing else changes. -/
def Obligations.CallPushesTheReturnAddress : Prop :=
  ∀ (nnn : Addr12) (s : State),
    (∀ k : Fin 16, s.sp.val = k.val → ∃ t, exec (.call nnn) s = .next t ∧
      t = { s with stack := t.stack, sp := t.sp, pc := t.pc } ∧ t.pc.toNat = nnn.toNat ∧ t.sp.val = k.val + 1 ∧
      t.stack[k].toNat = (s.pc.toNat + 2) % 65536 ∧ ∀ j : Fin 16, j ≠ k → t.stack[j] = s.stack[j]) ∧
    (s.sp = 16 → ∃ w, decodeWord w = .ok (.call nnn) ∧
      exec (.call nnn) s = .next { s with status := .faulted (.stackOverflow s.pc w) })

/-- R130 with R132 (E5; decision D1): RET after CALL comes back to call_site + 2 with the depth it had, and only a stale
entry differs. -/
def Obligations.ReturnAfterCallComesBack : Prop :=
  ∀ (nnn : Addr12) (s : State), s.sp.val < 16 → ∃ t u, exec (.call nnn) s = .next t ∧ exec .ret t = .next u ∧
    u = { s with stack := u.stack, pc := s.pc + 2 } ∧ ∀ k : Fin 16, k.val ≠ s.sp.val → u.stack[k] = s.stack[k]

/-- R133, R134: SE and SNE with an immediate go to pc + 4 where the test holds and to pc + 2 where it does not, and
change nothing else. -/
def Obligations.ImmediateSkipsTestTheRegister : Prop :=
  ∀ (x : Reg) (kk : Byte) (s : State),
    (s.getV x = kk → exec (.seImm x kk) s = .next { s with pc := s.pc + 4 } ∧
      exec (.sneImm x kk) s = .next { s with pc := s.pc + 2 }) ∧
    (s.getV x ≠ kk → exec (.seImm x kk) s = .next { s with pc := s.pc + 2 } ∧
      exec (.sneImm x kk) s = .next { s with pc := s.pc + 4 })

/-- R135, R136, R76 (decision D6): the register skips, whatever the low nibble of their word. -/
def Obligations.RegisterSkipsCompareTwoRegisters : Prop :=
  ∀ (x y : Reg) (s : State),
    (∀ n : Fin 16, decodeWord (wordFXYN 0x5 x y n) = .ok (.seReg x y) ∧
      decodeWord (wordFXYN 0x9 x y n) = .ok (.sneReg x y)) ∧
    (s.getV x = s.getV y → exec (.seReg x y) s = .next { s with pc := s.pc + 4 } ∧
      exec (.sneReg x y) s = .next { s with pc := s.pc + 2 }) ∧
    (s.getV x ≠ s.getV y → exec (.seReg x y) s = .next { s with pc := s.pc + 2 } ∧
      exec (.sneReg x y) s = .next { s with pc := s.pc + 4 })

/-- R137 (decision D25): BNNN goes to NNN + V0, not masked to 12 bits, and changes nothing else. -/
def Obligations.IndexedJumpAddsV0 : Prop :=
  ∀ (nnn : Addr12) (s : State), ∃ t, exec (.jpV0 nnn) s = .next t ∧ t = { s with pc := t.pc } ∧
    t.pc.toNat = nnn.toNat + (s.getV 0).toNat

/-! ### Registers and ALU -/

/-- R161, R170: the loads write their one register, VF like any other, and pc + 2. -/
def Obligations.RegisterLoadsWriteTheirDestination : Prop :=
  ∀ (x y : Reg) (kk : Byte) (s : State),
    (∃ t, exec (.ldImm x kk) s = .next t ∧ t = { s with v := t.v, pc := s.pc + 2 } ∧
      ∀ r, t.getV r = if r = x then kk else s.getV r) ∧
    (∃ t, exec (.ldReg x y) s = .next t ∧ t = { s with v := t.v, pc := s.pc + 2 } ∧
      ∀ r, t.getV r = if r = x then s.getV y else s.getV r)

/-- R162: ADD immediate wraps modulo 256 and writes no flag (the spec derives the missing flag from R37). -/
def Obligations.AddImmediateWrapsWithoutAFlag : Prop :=
  ∀ (x : Reg) (kk : Byte) (s : State), ∃ t, exec (.addImm x kk) s = .next t ∧
    t = { s with v := t.v, pc := s.pc + 2 } ∧ (t.getV x).toNat = ((s.getV x).toNat + kk.toNat) % 256 ∧
    ∀ r, r ≠ x → t.getV r = s.getV r

/-- R171 to R173 (decision D8): OR, AND, XOR bit by bit; VF is cleared after the result where `LOGIC_RESETS_VF` is
true, and is otherwise left unless it is the destination. -/
def Obligations.LogicOperationsActBitwise : Prop :=
  ∀ (x y : Reg) (s : State) (p : Instr × (Bool → Bool → Bool)),
    (p = (.orReg x y, Bool.or) ∨ p = (.andReg x y, Bool.and) ∨ p = (.xorReg x y, Bool.xor)) →
    ∃ t, exec p.1 s = .next t ∧ t = { s with v := t.v, pc := s.pc + 2 } ∧
      (∀ r, r ≠ x → r ≠ Reg.vf → t.getV r = s.getV r) ∧
      ((x ≠ Reg.vf ∨ s.config.logicResetsVF = false) →
        ∀ k, k < 8 → (t.getV x).getLsbD k = p.2 ((s.getV x).getLsbD k) ((s.getV y).getLsbD k)) ∧
      (s.config.logicResetsVF = true → t.getV Reg.vf = 0) ∧
      (s.config.logicResetsVF = false → x ≠ Reg.vf → t.getV Reg.vf = s.getV Reg.vf)

/-- R174: for all values the result is the sum modulo 256 and VF is 1 iff the sum passes 255; with x = VF the carry is
what stays. -/
def Obligations.AddRegistersSetsTheCarry : Prop :=
  ∀ (x y : Reg) (s : State), ∃ t, exec (.addReg x y) s = .next t ∧ t = { s with v := t.v, pc := s.pc + 2 } ∧
    (x ≠ Reg.vf → (t.getV x).toNat = ((s.getV x).toNat + (s.getV y).toNat) % 256) ∧
    t.getV Reg.vf = (if (s.getV x).toNat + (s.getV y).toNat > 255 then 1 else 0) ∧
    ∀ r, r ≠ x → r ≠ Reg.vf → t.getV r = s.getV r

/-- R175, R177 (conflict C2): SUB and SUBN give the difference modulo 256 and VF = 1 iff no borrow; with x = VF the flag
is what stays. -/
def Obligations.SubtractionsSetVFWithoutBorrow : Prop :=
  ∀ (x y : Reg) (s : State) (p : Instr × Byte × Byte),
    (p = (.subReg x y, s.getV x, s.getV y) ∨ p = (.subn x y, s.getV y, s.getV x)) →
    ∃ t, exec p.1 s = .next t ∧ t = { s with v := t.v, pc := s.pc + 2 } ∧
      (x ≠ Reg.vf → ((t.getV x).toNat : Int) = ((p.2.1.toNat : Int) - p.2.2.toNat) % 256) ∧
      t.getV Reg.vf = (if p.2.1.toNat ≥ p.2.2.toNat then 1 else 0) ∧
      ∀ r, r ≠ x → r ≠ Reg.vf → t.getV r = s.getV r

/-- R176, R178 (decision D7): the shifts by one of Vx or Vy, as `SHIFT_SOURCE` says, and the bit shifted out in VF,
written last. -/
def Obligations.ShiftsPutTheLostBitInVF : Prop :=
  ∀ (x y : Reg) (s : State) (a : Byte), a = (if s.config.shiftSource = .vx then s.getV x else s.getV y) →
    (∃ t, exec (.shr x y) s = .next t ∧ t = { s with v := t.v, pc := s.pc + 2 } ∧
      (x ≠ Reg.vf → (t.getV x).toNat = a.toNat / 2) ∧ (t.getV Reg.vf).toNat = a.toNat % 2 ∧
      ∀ r, r ≠ x → r ≠ Reg.vf → t.getV r = s.getV r) ∧
    (∃ t, exec (.shl x y) s = .next t ∧ t = { s with v := t.v, pc := s.pc + 2 } ∧
      (x ≠ Reg.vf → (t.getV x).toNat = a.toNat * 2 % 256) ∧ (t.getV Reg.vf).toNat = a.toNat / 128 ∧
      ∀ r, r ≠ x → r ≠ Reg.vf → t.getV r = s.getV r)

/-- R180 (decision D15): CXKK writes the drawn byte masked by KK and consumes the draw whatever the mask; the byte is the
next supplied one where there is one, and any byte can be it (notes/assumptions/3.md). -/
def Obligations.RandomByteIsMaskedAndConsumed : Prop :=
  ∀ (x : Reg) (kk : Byte) (s : State), ∃ t, exec (.rnd x kk) s = .next t ∧
    t = { s with v := t.v, pc := s.pc + 2, rands := s.rands.tail, randNo := s.randNo + 1 } ∧
    (∀ r, r ≠ x → t.getV r = s.getV r) ∧
    (∀ k, k < 8 → kk.getLsbD k = false → (t.getV x).getLsbD k = false) ∧
    ∀ b rest, s.rands = b :: rest → t.getV x = b &&& kk

/-! ### Index register and memory -/

/-- R200: ANNN writes the zero-extended NNN to I. -/
def Obligations.LoadIndexWritesItsAddress : Prop :=
  ∀ (nnn : Addr12) (s : State), ∃ t, exec (.ldI nnn) s = .next t ∧ t = { s with i := t.i, pc := s.pc + 2 } ∧
    t.i.toNat = nnn.toNat ∧ t.i.toNat ≤ 0xFFF

/-- R205: FX29 points I at the glyph of the low nibble of Vx, font base 0. -/
def Obligations.GlyphAddressIsFiveTimesTheLowNibble : Prop :=
  ∀ (x : Reg) (s : State), ∃ t, exec (.ldF x) s = .next t ∧ t = { s with i := t.i, pc := s.pc + 2 } ∧
    t.i.toNat = (s.getV x).toNat % 16 * 5 ∧ t.i.toNat ≤ 0x4B

/-- R201, R203 (decisions D9, D34): FX1E under both values of `FX1E_POLICY`. -/
def Obligations.AddIndexFollowsThePolicy : Prop :=
  ∀ (x : Reg) (s : State), ∃ t, exec (.addI x) s = .next t ∧ t = { s with v := t.v, i := t.i, pc := s.pc + 2 } ∧
    (∀ r, r ≠ Reg.vf → t.getV r = s.getV r) ∧
    (s.config.fx1e = .carryVF → t.i.toNat = (s.i.toNat + (s.getV x).toNat) % 65536 ∧
      t.getV Reg.vf = (if s.i.toNat + (s.getV x).toNat > 0xFFF then 1 else 0)) ∧
    (s.config.fx1e = .wrap12 → t.i.toNat = (s.i.toNat + (s.getV x).toNat) % 0x1000 ∧ t.getV Reg.vf = s.getV Reg.vf)

/-- R206 (decision D12): FX33 stores the three decimal digits of Vx at I, I + 1 and I + 2, hundreds first, and changes
no other byte, no register and not I. -/
def Obligations.BcdStoresThreeDecimalDigits : Prop :=
  ∀ (x : Reg) (s : State), s.i.toNat + 2 ≤ 0xFFF → ∃ t, exec (.ldB x) s = .next t ∧
    t = { s with mem := t.mem, pc := s.pc + 2 } ∧
    100 * (t.readByte s.i.toNat).toNat + 10 * (t.readByte (s.i.toNat + 1)).toNat + (t.readByte (s.i.toNat + 2)).toNat =
      (s.getV x).toNat ∧
    (t.readByte (s.i.toNat + 1)).toNat < 10 ∧ (t.readByte (s.i.toNat + 2)).toNat < 10 ∧
    ∀ a, a < s.i.toNat ∨ s.i.toNat + 2 < a → t.readByte a = s.readByte a

/-- R207 (decisions D10, D34): FX55 stores V0 to Vx from I on, changes no other byte, and leaves I past the last one. -/
def Obligations.StoreRegistersWritesV0ToVx : Prop :=
  ∀ (x : Reg) (s : State), s.i.toNat + x.val ≤ 0xFFF → ∃ t, exec (.stRegs x) s = .next t ∧
    t = { s with mem := t.mem, i := t.i, pc := s.pc + 2 } ∧ t.i.toNat = s.i.toNat + x.val + 1 ∧
    (∀ k : Reg, k ≤ x → t.readByte (s.i.toNat + k.val) = s.getV k) ∧
    ∀ a, a < s.i.toNat ∨ s.i.toNat + x.val < a → t.readByte a = s.readByte a

/-- R208 (decisions D10, D34): FX65 loads V0 to Vx from I on, leaves the other registers and memory, and leaves I past
the last byte. -/
def Obligations.LoadRegistersReadsV0ToVx : Prop :=
  ∀ (x : Reg) (s : State), s.i.toNat + x.val ≤ 0xFFF → ∃ t, exec (.ldRegs x) s = .next t ∧
    t = { s with v := t.v, i := t.i, pc := s.pc + 2 } ∧ t.i.toNat = s.i.toNat + x.val + 1 ∧
    ∀ r : Reg, t.getV r = if r ≤ x then s.readByte (s.i.toNat + r.val) else s.getV r

/-- R202, R57, R274 (decision D10): FX33, FX55, FX65 and DXYN (N ≥ 1) whose range leaves memory raise
OutOfBoundsMemoryAccess with their word and the lowest illegal address, and change nothing but the status. -/
def Obligations.RangesOutsideMemoryRaiseBeforeAnyWrite : Prop :=
  ∀ (x y : Reg) (n : Fin 16) (s : State) (p : Instr × Nat),
    (p = (.ldB x, 3) ∨ p = (.stRegs x, x.val + 1) ∨ p = (.ldRegs x, x.val + 1) ∨ (p = (.drw x y n, n.val) ∧ 1 ≤ n.val)) →
    s.i.toNat + p.2 - 1 > 0xFFF →
    ∃ w a, decodeWord w = .ok p.1 ∧ s.i.toNat ≤ a ∧ a < s.i.toNat + p.2 ∧ a > 0xFFF ∧
      (∀ b, s.i.toNat ≤ b → b < a → b ≤ 0xFFF) ∧
      exec p.1 s = .next { s with status := .faulted (.outOfBounds s.pc (some w) a) }

/-- FX55, then FX65 with I set back, restores V0 to Vx whatever the registers held in between (from R207 and R208). -/
def Obligations.LoadAfterStoreRestoresTheRegisters : Prop :=
  ∀ (x : Reg) (s t : State) (v' : Vector Byte 16), s.i.toNat + x.val ≤ 0xFFF → exec (.stRegs x) s = .next t →
    ∃ u, exec (.ldRegs x) { t with v := v', i := s.i } = .next u ∧ (∀ r, r ≤ x → u.getV r = s.getV r) ∧ u.i = t.i

/-- R63, R313 (decision D23): after FX55 and FX33 from any I in range, the word fetched next is read from the bytes at
pc + 2 and pc + 3 as they are after the store: the stored byte where the stored range covers the address, and else the
byte from before. The rest of the cycle does not change that. So a program that stores over all or part of its next
instruction fetches what it stored. -/
def Obligations.StoreOverTheNextInstructionIsFetched : Prop :=
  ∀ (x : Reg) (s : State) (p : Instr × Nat × (Nat → Byte)),
    (p = (.stRegs x, x.val + 1, fun k => s.getV (Fin.ofNat 16 k)) ∨
     p = (.ldB x, 3, fun k => BitVec.ofNat 8 ((s.getV x).toNat / 10 ^ (2 - k) % 10))) →
    s.i.toNat + p.2.1 ≤ 0x1000 → s.pc.toNat + 3 ≤ 0xFFF →
    ∃ t hi lo, exec p.1 s = .next t ∧ t.fetch = .word (wordOfBytes hi lo) ∧ t.sampleInputs.fetch = t.fetch ∧
      hi = (if s.i.toNat ≤ s.pc.toNat + 2 ∧ s.pc.toNat + 2 < s.i.toNat + p.2.1
        then p.2.2 (s.pc.toNat + 2 - s.i.toNat) else s.readByte (s.pc.toNat + 2)) ∧
      lo = (if s.i.toNat ≤ s.pc.toNat + 3 ∧ s.pc.toNat + 3 < s.i.toNat + p.2.1
        then p.2.2 (s.pc.toNat + 3 - s.i.toNat) else s.readByte (s.pc.toNat + 3))

/-! ### Display -/

/-- R231: CLS turns every pixel off and changes nothing else but pc; VF is not written. -/
def Obligations.ClearTurnsEveryPixelOff : Prop :=
  ∀ s : State, ∃ t, exec .cls s = .next t ∧ t = { s with fb := t.fb, pc := s.pc + 2 } ∧
    ∀ r c, r < 32 → c < 64 → t.fb.pixel r c = false

/-- R230, R232, R233, R236 (decisions D10, D11): DXYN inverts exactly the pixels under the 1 bits of the sprite, wrapped,
and VF says whether any of them was on; the sprite is placed by the registers from before VF is written. -/
def Obligations.SpriteInvertsThePixelsItCovers : Prop :=
  ∀ (x y : Reg) (n : Fin 16) (s : State), s.i.toNat + n.val ≤ 0x1000 → ∃ t, exec (.drw x y n) s = .next t ∧
    t = { s with v := t.v, fb := t.fb, pc := s.pc + 2 } ∧
    (∀ r c, r < 32 → c < 64 → (t.fb.pixel r c ≠ s.fb.pixel r c ↔ s.spriteCovers x y n r c)) ∧
    ((∃ r c, s.spriteCovers x y n r c ∧ s.fb.pixel r c = true) → t.getV Reg.vf = 1) ∧
    ((∀ r c, s.spriteCovers x y n r c → s.fb.pixel r c = false) → t.getV Reg.vf = 0) ∧
    ∀ r, r ≠ Reg.vf → t.getV r = s.getV r

/-- R235 (decision D11): DXYN with N = 0 draws nothing, checks no range whatever I is, and clears VF. -/
def Obligations.SpriteOfNoRowsOnlyClearsVF : Prop :=
  ∀ (x y : Reg) (s : State), ∃ t, exec (.drw x y 0) s = .next t ∧ t = { s with v := t.v, pc := s.pc + 2 } ∧
    t.getV Reg.vf = 0 ∧ ∀ r, r ≠ Reg.vf → t.getV r = s.getV r

/-- R234 as its quotations of the source give it (E4): drawing a sprite a second time at the same place restores every
pixel; from an all-off framebuffer the second draw reports VF = 1 if the sprite covers any pixel. The coordinates are
not VF, which the first draw writes: DFYN and DXFN draw a second time at the place the new VF gives, which
`Obligations.SpriteInvertsThePixelsItCovers` says for every X and Y. The sentence of R234 without "all-off" does not follow from R232 and is not
claimed (notes/assumptions/11.md). -/
def Obligations.DrawingTwiceRestoresTheFramebuffer : Prop :=
  ∀ (x y : Reg) (n : Fin 16) (s : State), x ≠ Reg.vf → y ≠ Reg.vf → s.i.toNat + n.val ≤ 0x1000 →
    ∃ t u, exec (.drw x y n) s = .next t ∧ exec (.drw x y n) t = .next u ∧ u.fb = s.fb ∧
      ((∀ r c, s.fb.pixel r c = false) → (∃ r c, s.spriteCovers x y n r c) → t.getV Reg.vf = 0 ∧ u.getV Reg.vf = 1)

/-! ### Keys and timers -/

/-- R250 to R252 (decision D13): SKP and SKNP test key Vx & 0xF as the last sync loaded it, and change nothing but pc. -/
def Obligations.KeySkipsTestTheLowNibbleKey : Prop :=
  ∀ (x : Reg) (s : State) (k : Fin 16), k.val = (s.getV x).toNat % 16 →
    (s.key.getLsbD k.val = true → exec (.skp x) s = .next { s with pc := s.pc + 4 } ∧
      exec (.sknp x) s = .next { s with pc := s.pc + 2 }) ∧
    (s.key.getLsbD k.val = false → exec (.skp x) s = .next { s with pc := s.pc + 2 } ∧
      exec (.sknp x) s = .next { s with pc := s.pc + 4 })

/-- R254 (decision D14): FX0A. In `nop` mode it only advances. In `block` mode the first execution starts the wait, a
waiting one with no newly pressed key samples the keys again, both with pc unchanged, and a waiting one with a key that
went from released to pressed stores the lowest such key, ends the wait and advances. -/
def Obligations.WaitForKeyEndsOnAKeyDownTransition : Prop :=
  ∀ (x : Reg) (s : State),
    (s.config.fx0a = .nop → exec (.ldVxK x) s = .next { s with pc := s.pc + 2 }) ∧
    (s.config.fx0a = .block → s.kwait = false →
      exec (.ldVxK x) s = .next { s with kwait := true, kprev := s.key }) ∧
    (s.config.fx0a = .block → s.kwait = true →
      (∀ k : Fin 16, ¬ (s.key.getLsbD k = true ∧ s.kprev.getLsbD k = false)) →
      exec (.ldVxK x) s = .next { s with kprev := s.key }) ∧
    (s.config.fx0a = .block → s.kwait = true → ∀ k : Fin 16, s.key.getLsbD k = true → s.kprev.getLsbD k = false →
      (∀ j : Fin 16, j < k → ¬ (s.key.getLsbD j = true ∧ s.kprev.getLsbD j = false)) →
      ∃ t, exec (.ldVxK x) s = .next t ∧ t = { s with v := t.v, kwait := false, pc := s.pc + 2 } ∧
        (t.getV x).toNat = k.val ∧ ∀ r, r ≠ x → t.getV r = s.getV r)

/-- R253, R255: FX07 reads DT as it is before this cycle's decay, and FX15 writes it before that decay. -/
def Obligations.DelayTimerIsReadAndWritten : Prop :=
  ∀ (x : Reg) (s : State),
    (∃ t, exec (.ldVxDT x) s = .next t ∧ t = { s with v := t.v, pc := s.pc + 2 } ∧
      ∀ r, t.getV r = if r = x then s.dt else s.getV r) ∧
    exec (.ldDTVx x) s = .next { s with dt := s.getV x, pc := s.pc + 2 } ∧
    (∀ w, s.status = .running → s.fetch = .word w →
      (decodeWord w = .ok (.ldVxDT x) → ∃ u, step s = .next u ∧
        u.getV x = s.dt ∧ u.dt.toNat = s.dt.toNat - s.cycleInput.ticks) ∧
      (decodeWord w = .ok (.ldDTVx x) → ∃ u, step s = .next u ∧
        u.dt.toNat = (s.getV x).toNat - s.cycleInput.ticks))

/-- R256, R101 (decision D27), R314: FX18 writes ST, which is the output `st_out`, and the same cycle's ticks decay it. -/
def Obligations.SoundTimerIsWrittenAndDecays : Prop :=
  ∀ (x : Reg) (s : State), ∃ t, exec (.ldSTVx x) s = .next t ∧ t = { s with st := s.getV x, pc := s.pc + 2 } ∧
    t.stOut = s.getV x ∧
    ((∃ w, s.fetch = .word w ∧ decodeWord w = .ok (.ldSTVx x)) → s.status = .running →
      ∃ u, step s = .next u ∧ u.stOut.toNat = (s.getV x).toNat - s.cycleInput.ticks)
end

