-- ==== Sys2Proof/Laws/State.lean ====
section
/-! SUPPORT. One lemma per field per update of State, each true by rfl: a later proof never unfolds a record
update. `getV` and `readByte` are treated as fields. -/

namespace Sys2Proof.Machine

variable (s : State)

/-! ### writeBytes -/

@[simp] theorem State.config_writeBytes (a : Nat) (vs : List Byte) : (s.writeBytes a vs).config = s.config := rfl
@[simp] theorem State.mem_writeBytes (a : Nat) (vs : List Byte) : (s.writeBytes a vs).mem = Memory.writeList s.config.font s.mem a vs := rfl
@[simp] theorem State.v_writeBytes (a : Nat) (vs : List Byte) : (s.writeBytes a vs).v = s.v := rfl
@[simp] theorem State.i_writeBytes (a : Nat) (vs : List Byte) : (s.writeBytes a vs).i = s.i := rfl
@[simp] theorem State.pc_writeBytes (a : Nat) (vs : List Byte) : (s.writeBytes a vs).pc = s.pc := rfl
@[simp] theorem State.stack_writeBytes (a : Nat) (vs : List Byte) : (s.writeBytes a vs).stack = s.stack := rfl
@[simp] theorem State.sp_writeBytes (a : Nat) (vs : List Byte) : (s.writeBytes a vs).sp = s.sp := rfl
@[simp] theorem State.dt_writeBytes (a : Nat) (vs : List Byte) : (s.writeBytes a vs).dt = s.dt := rfl
@[simp] theorem State.st_writeBytes (a : Nat) (vs : List Byte) : (s.writeBytes a vs).st = s.st := rfl
@[simp] theorem State.fb_writeBytes (a : Nat) (vs : List Byte) : (s.writeBytes a vs).fb = s.fb := rfl
@[simp] theorem State.key_writeBytes (a : Nat) (vs : List Byte) : (s.writeBytes a vs).key = s.key := rfl
@[simp] theorem State.status_writeBytes (a : Nat) (vs : List Byte) : (s.writeBytes a vs).status = s.status := rfl
@[simp] theorem State.kwait_writeBytes (a : Nat) (vs : List Byte) : (s.writeBytes a vs).kwait = s.kwait := rfl
@[simp] theorem State.kprev_writeBytes (a : Nat) (vs : List Byte) : (s.writeBytes a vs).kprev = s.kprev := rfl
@[simp] theorem State.fbOut_writeBytes (a : Nat) (vs : List Byte) : (s.writeBytes a vs).fbOut = s.fbOut := rfl
@[simp] theorem State.events_writeBytes (a : Nat) (vs : List Byte) : (s.writeBytes a vs).events = s.events := rfl
@[simp] theorem State.inputs_writeBytes (a : Nat) (vs : List Byte) : (s.writeBytes a vs).inputs = s.inputs := rfl
@[simp] theorem State.inputNo_writeBytes (a : Nat) (vs : List Byte) : (s.writeBytes a vs).inputNo = s.inputNo := rfl
@[simp] theorem State.rands_writeBytes (a : Nat) (vs : List Byte) : (s.writeBytes a vs).rands = s.rands := rfl
@[simp] theorem State.randNo_writeBytes (a : Nat) (vs : List Byte) : (s.writeBytes a vs).randNo = s.randNo := rfl
@[simp] theorem State.getV_writeBytes (a : Nat) (vs : List Byte) (r : Reg) : (s.writeBytes a vs).getV r = s.getV r := rfl

/-! ### setV -/

@[simp] theorem State.config_setV (x : Reg) (b : Byte) : (s.setV x b).config = s.config := rfl
@[simp] theorem State.mem_setV (x : Reg) (b : Byte) : (s.setV x b).mem = s.mem := rfl
@[simp] theorem State.v_setV (x : Reg) (b : Byte) : (s.setV x b).v = s.v.set x b := rfl
@[simp] theorem State.i_setV (x : Reg) (b : Byte) : (s.setV x b).i = s.i := rfl
@[simp] theorem State.pc_setV (x : Reg) (b : Byte) : (s.setV x b).pc = s.pc := rfl
@[simp] theorem State.stack_setV (x : Reg) (b : Byte) : (s.setV x b).stack = s.stack := rfl
@[simp] theorem State.sp_setV (x : Reg) (b : Byte) : (s.setV x b).sp = s.sp := rfl
@[simp] theorem State.dt_setV (x : Reg) (b : Byte) : (s.setV x b).dt = s.dt := rfl
@[simp] theorem State.st_setV (x : Reg) (b : Byte) : (s.setV x b).st = s.st := rfl
@[simp] theorem State.fb_setV (x : Reg) (b : Byte) : (s.setV x b).fb = s.fb := rfl
@[simp] theorem State.key_setV (x : Reg) (b : Byte) : (s.setV x b).key = s.key := rfl
@[simp] theorem State.status_setV (x : Reg) (b : Byte) : (s.setV x b).status = s.status := rfl
@[simp] theorem State.kwait_setV (x : Reg) (b : Byte) : (s.setV x b).kwait = s.kwait := rfl
@[simp] theorem State.kprev_setV (x : Reg) (b : Byte) : (s.setV x b).kprev = s.kprev := rfl
@[simp] theorem State.fbOut_setV (x : Reg) (b : Byte) : (s.setV x b).fbOut = s.fbOut := rfl
@[simp] theorem State.events_setV (x : Reg) (b : Byte) : (s.setV x b).events = s.events := rfl
@[simp] theorem State.inputs_setV (x : Reg) (b : Byte) : (s.setV x b).inputs = s.inputs := rfl
@[simp] theorem State.inputNo_setV (x : Reg) (b : Byte) : (s.setV x b).inputNo = s.inputNo := rfl
@[simp] theorem State.rands_setV (x : Reg) (b : Byte) : (s.setV x b).rands = s.rands := rfl
@[simp] theorem State.randNo_setV (x : Reg) (b : Byte) : (s.setV x b).randNo = s.randNo := rfl
@[simp] theorem State.readByte_setV (x : Reg) (b : Byte) (k : Nat) : (s.setV x b).readByte k = s.readByte k := rfl

/-! ### loadRegs -/

@[simp] theorem State.config_loadRegs (n : Nat) (f : Nat → Byte) : (s.loadRegs n f).config = s.config := rfl
@[simp] theorem State.mem_loadRegs (n : Nat) (f : Nat → Byte) : (s.loadRegs n f).mem = s.mem := rfl
@[simp] theorem State.v_loadRegs (n : Nat) (f : Nat → Byte) : (s.loadRegs n f).v = Vector.ofFn fun k : Fin 16 => if k.val < n then f k.val else s.v[k] := rfl
@[simp] theorem State.i_loadRegs (n : Nat) (f : Nat → Byte) : (s.loadRegs n f).i = s.i := rfl
@[simp] theorem State.pc_loadRegs (n : Nat) (f : Nat → Byte) : (s.loadRegs n f).pc = s.pc := rfl
@[simp] theorem State.stack_loadRegs (n : Nat) (f : Nat → Byte) : (s.loadRegs n f).stack = s.stack := rfl
@[simp] theorem State.sp_loadRegs (n : Nat) (f : Nat → Byte) : (s.loadRegs n f).sp = s.sp := rfl
@[simp] theorem State.dt_loadRegs (n : Nat) (f : Nat → Byte) : (s.loadRegs n f).dt = s.dt := rfl
@[simp] theorem State.st_loadRegs (n : Nat) (f : Nat → Byte) : (s.loadRegs n f).st = s.st := rfl
@[simp] theorem State.fb_loadRegs (n : Nat) (f : Nat → Byte) : (s.loadRegs n f).fb = s.fb := rfl
@[simp] theorem State.key_loadRegs (n : Nat) (f : Nat → Byte) : (s.loadRegs n f).key = s.key := rfl
@[simp] theorem State.status_loadRegs (n : Nat) (f : Nat → Byte) : (s.loadRegs n f).status = s.status := rfl
@[simp] theorem State.kwait_loadRegs (n : Nat) (f : Nat → Byte) : (s.loadRegs n f).kwait = s.kwait := rfl
@[simp] theorem State.kprev_loadRegs (n : Nat) (f : Nat → Byte) : (s.loadRegs n f).kprev = s.kprev := rfl
@[simp] theorem State.fbOut_loadRegs (n : Nat) (f : Nat → Byte) : (s.loadRegs n f).fbOut = s.fbOut := rfl
@[simp] theorem State.events_loadRegs (n : Nat) (f : Nat → Byte) : (s.loadRegs n f).events = s.events := rfl
@[simp] theorem State.inputs_loadRegs (n : Nat) (f : Nat → Byte) : (s.loadRegs n f).inputs = s.inputs := rfl
@[simp] theorem State.inputNo_loadRegs (n : Nat) (f : Nat → Byte) : (s.loadRegs n f).inputNo = s.inputNo := rfl
@[simp] theorem State.rands_loadRegs (n : Nat) (f : Nat → Byte) : (s.loadRegs n f).rands = s.rands := rfl
@[simp] theorem State.randNo_loadRegs (n : Nat) (f : Nat → Byte) : (s.loadRegs n f).randNo = s.randNo := rfl
@[simp] theorem State.readByte_loadRegs (n : Nat) (f : Nat → Byte) (k : Nat) : (s.loadRegs n f).readByte k = s.readByte k := rfl

/-! ### setI -/

@[simp] theorem State.config_setI (a : Addr) : (s.setI a).config = s.config := rfl
@[simp] theorem State.mem_setI (a : Addr) : (s.setI a).mem = s.mem := rfl
@[simp] theorem State.v_setI (a : Addr) : (s.setI a).v = s.v := rfl
@[simp] theorem State.i_setI (a : Addr) : (s.setI a).i = a := rfl
@[simp] theorem State.pc_setI (a : Addr) : (s.setI a).pc = s.pc := rfl
@[simp] theorem State.stack_setI (a : Addr) : (s.setI a).stack = s.stack := rfl
@[simp] theorem State.sp_setI (a : Addr) : (s.setI a).sp = s.sp := rfl
@[simp] theorem State.dt_setI (a : Addr) : (s.setI a).dt = s.dt := rfl
@[simp] theorem State.st_setI (a : Addr) : (s.setI a).st = s.st := rfl
@[simp] theorem State.fb_setI (a : Addr) : (s.setI a).fb = s.fb := rfl
@[simp] theorem State.key_setI (a : Addr) : (s.setI a).key = s.key := rfl
@[simp] theorem State.status_setI (a : Addr) : (s.setI a).status = s.status := rfl
@[simp] theorem State.kwait_setI (a : Addr) : (s.setI a).kwait = s.kwait := rfl
@[simp] theorem State.kprev_setI (a : Addr) : (s.setI a).kprev = s.kprev := rfl
@[simp] theorem State.fbOut_setI (a : Addr) : (s.setI a).fbOut = s.fbOut := rfl
@[simp] theorem State.events_setI (a : Addr) : (s.setI a).events = s.events := rfl
@[simp] theorem State.inputs_setI (a : Addr) : (s.setI a).inputs = s.inputs := rfl
@[simp] theorem State.inputNo_setI (a : Addr) : (s.setI a).inputNo = s.inputNo := rfl
@[simp] theorem State.rands_setI (a : Addr) : (s.setI a).rands = s.rands := rfl
@[simp] theorem State.randNo_setI (a : Addr) : (s.setI a).randNo = s.randNo := rfl
@[simp] theorem State.getV_setI (a : Addr) (r : Reg) : (s.setI a).getV r = s.getV r := rfl
@[simp] theorem State.readByte_setI (a : Addr) (k : Nat) : (s.setI a).readByte k = s.readByte k := rfl

/-! ### goto -/

@[simp] theorem State.config_goto (a : Addr) : (s.goto a).config = s.config := rfl
@[simp] theorem State.mem_goto (a : Addr) : (s.goto a).mem = s.mem := rfl
@[simp] theorem State.v_goto (a : Addr) : (s.goto a).v = s.v := rfl
@[simp] theorem State.i_goto (a : Addr) : (s.goto a).i = s.i := rfl
@[simp] theorem State.pc_goto (a : Addr) : (s.goto a).pc = a := rfl
@[simp] theorem State.stack_goto (a : Addr) : (s.goto a).stack = s.stack := rfl
@[simp] theorem State.sp_goto (a : Addr) : (s.goto a).sp = s.sp := rfl
@[simp] theorem State.dt_goto (a : Addr) : (s.goto a).dt = s.dt := rfl
@[simp] theorem State.st_goto (a : Addr) : (s.goto a).st = s.st := rfl
@[simp] theorem State.fb_goto (a : Addr) : (s.goto a).fb = s.fb := rfl
@[simp] theorem State.key_goto (a : Addr) : (s.goto a).key = s.key := rfl
@[simp] theorem State.status_goto (a : Addr) : (s.goto a).status = s.status := rfl
@[simp] theorem State.kwait_goto (a : Addr) : (s.goto a).kwait = s.kwait := rfl
@[simp] theorem State.kprev_goto (a : Addr) : (s.goto a).kprev = s.kprev := rfl
@[simp] theorem State.fbOut_goto (a : Addr) : (s.goto a).fbOut = s.fbOut := rfl
@[simp] theorem State.events_goto (a : Addr) : (s.goto a).events = s.events := rfl
@[simp] theorem State.inputs_goto (a : Addr) : (s.goto a).inputs = s.inputs := rfl
@[simp] theorem State.inputNo_goto (a : Addr) : (s.goto a).inputNo = s.inputNo := rfl
@[simp] theorem State.rands_goto (a : Addr) : (s.goto a).rands = s.rands := rfl
@[simp] theorem State.randNo_goto (a : Addr) : (s.goto a).randNo = s.randNo := rfl
@[simp] theorem State.getV_goto (a : Addr) (r : Reg) : (s.goto a).getV r = s.getV r := rfl
@[simp] theorem State.readByte_goto (a : Addr) (k : Nat) : (s.goto a).readByte k = s.readByte k := rfl

/-! ### setDT -/

@[simp] theorem State.config_setDT (b : Byte) : (s.setDT b).config = s.config := rfl
@[simp] theorem State.mem_setDT (b : Byte) : (s.setDT b).mem = s.mem := rfl
@[simp] theorem State.v_setDT (b : Byte) : (s.setDT b).v = s.v := rfl
@[simp] theorem State.i_setDT (b : Byte) : (s.setDT b).i = s.i := rfl
@[simp] theorem State.pc_setDT (b : Byte) : (s.setDT b).pc = s.pc := rfl
@[simp] theorem State.stack_setDT (b : Byte) : (s.setDT b).stack = s.stack := rfl
@[simp] theorem State.sp_setDT (b : Byte) : (s.setDT b).sp = s.sp := rfl
@[simp] theorem State.dt_setDT (b : Byte) : (s.setDT b).dt = b := rfl
@[simp] theorem State.st_setDT (b : Byte) : (s.setDT b).st = s.st := rfl
@[simp] theorem State.fb_setDT (b : Byte) : (s.setDT b).fb = s.fb := rfl
@[simp] theorem State.key_setDT (b : Byte) : (s.setDT b).key = s.key := rfl
@[simp] theorem State.status_setDT (b : Byte) : (s.setDT b).status = s.status := rfl
@[simp] theorem State.kwait_setDT (b : Byte) : (s.setDT b).kwait = s.kwait := rfl
@[simp] theorem State.kprev_setDT (b : Byte) : (s.setDT b).kprev = s.kprev := rfl
@[simp] theorem State.fbOut_setDT (b : Byte) : (s.setDT b).fbOut = s.fbOut := rfl
@[simp] theorem State.events_setDT (b : Byte) : (s.setDT b).events = s.events := rfl
@[simp] theorem State.inputs_setDT (b : Byte) : (s.setDT b).inputs = s.inputs := rfl
@[simp] theorem State.inputNo_setDT (b : Byte) : (s.setDT b).inputNo = s.inputNo := rfl
@[simp] theorem State.rands_setDT (b : Byte) : (s.setDT b).rands = s.rands := rfl
@[simp] theorem State.randNo_setDT (b : Byte) : (s.setDT b).randNo = s.randNo := rfl
@[simp] theorem State.getV_setDT (b : Byte) (r : Reg) : (s.setDT b).getV r = s.getV r := rfl
@[simp] theorem State.readByte_setDT (b : Byte) (k : Nat) : (s.setDT b).readByte k = s.readByte k := rfl

/-! ### setST -/

@[simp] theorem State.config_setST (b : Byte) : (s.setST b).config = s.config := rfl
@[simp] theorem State.mem_setST (b : Byte) : (s.setST b).mem = s.mem := rfl
@[simp] theorem State.v_setST (b : Byte) : (s.setST b).v = s.v := rfl
@[simp] theorem State.i_setST (b : Byte) : (s.setST b).i = s.i := rfl
@[simp] theorem State.pc_setST (b : Byte) : (s.setST b).pc = s.pc := rfl
@[simp] theorem State.stack_setST (b : Byte) : (s.setST b).stack = s.stack := rfl
@[simp] theorem State.sp_setST (b : Byte) : (s.setST b).sp = s.sp := rfl
@[simp] theorem State.dt_setST (b : Byte) : (s.setST b).dt = s.dt := rfl
@[simp] theorem State.st_setST (b : Byte) : (s.setST b).st = b := rfl
@[simp] theorem State.fb_setST (b : Byte) : (s.setST b).fb = s.fb := rfl
@[simp] theorem State.key_setST (b : Byte) : (s.setST b).key = s.key := rfl
@[simp] theorem State.status_setST (b : Byte) : (s.setST b).status = s.status := rfl
@[simp] theorem State.kwait_setST (b : Byte) : (s.setST b).kwait = s.kwait := rfl
@[simp] theorem State.kprev_setST (b : Byte) : (s.setST b).kprev = s.kprev := rfl
@[simp] theorem State.fbOut_setST (b : Byte) : (s.setST b).fbOut = s.fbOut := rfl
@[simp] theorem State.events_setST (b : Byte) : (s.setST b).events = s.events := rfl
@[simp] theorem State.inputs_setST (b : Byte) : (s.setST b).inputs = s.inputs := rfl
@[simp] theorem State.inputNo_setST (b : Byte) : (s.setST b).inputNo = s.inputNo := rfl
@[simp] theorem State.rands_setST (b : Byte) : (s.setST b).rands = s.rands := rfl
@[simp] theorem State.randNo_setST (b : Byte) : (s.setST b).randNo = s.randNo := rfl
@[simp] theorem State.getV_setST (b : Byte) (r : Reg) : (s.setST b).getV r = s.getV r := rfl
@[simp] theorem State.readByte_setST (b : Byte) (k : Nat) : (s.setST b).readByte k = s.readByte k := rfl

/-! ### setWait -/

@[simp] theorem State.config_setWait (w : Bool) (d : Keys) : (s.setWait w d).config = s.config := rfl
@[simp] theorem State.mem_setWait (w : Bool) (d : Keys) : (s.setWait w d).mem = s.mem := rfl
@[simp] theorem State.v_setWait (w : Bool) (d : Keys) : (s.setWait w d).v = s.v := rfl
@[simp] theorem State.i_setWait (w : Bool) (d : Keys) : (s.setWait w d).i = s.i := rfl
@[simp] theorem State.pc_setWait (w : Bool) (d : Keys) : (s.setWait w d).pc = s.pc := rfl
@[simp] theorem State.stack_setWait (w : Bool) (d : Keys) : (s.setWait w d).stack = s.stack := rfl
@[simp] theorem State.sp_setWait (w : Bool) (d : Keys) : (s.setWait w d).sp = s.sp := rfl
@[simp] theorem State.dt_setWait (w : Bool) (d : Keys) : (s.setWait w d).dt = s.dt := rfl
@[simp] theorem State.st_setWait (w : Bool) (d : Keys) : (s.setWait w d).st = s.st := rfl
@[simp] theorem State.fb_setWait (w : Bool) (d : Keys) : (s.setWait w d).fb = s.fb := rfl
@[simp] theorem State.key_setWait (w : Bool) (d : Keys) : (s.setWait w d).key = s.key := rfl
@[simp] theorem State.status_setWait (w : Bool) (d : Keys) : (s.setWait w d).status = s.status := rfl
@[simp] theorem State.kwait_setWait (w : Bool) (d : Keys) : (s.setWait w d).kwait = w := rfl
@[simp] theorem State.kprev_setWait (w : Bool) (d : Keys) : (s.setWait w d).kprev = d := rfl
@[simp] theorem State.fbOut_setWait (w : Bool) (d : Keys) : (s.setWait w d).fbOut = s.fbOut := rfl
@[simp] theorem State.events_setWait (w : Bool) (d : Keys) : (s.setWait w d).events = s.events := rfl
@[simp] theorem State.inputs_setWait (w : Bool) (d : Keys) : (s.setWait w d).inputs = s.inputs := rfl
@[simp] theorem State.inputNo_setWait (w : Bool) (d : Keys) : (s.setWait w d).inputNo = s.inputNo := rfl
@[simp] theorem State.rands_setWait (w : Bool) (d : Keys) : (s.setWait w d).rands = s.rands := rfl
@[simp] theorem State.randNo_setWait (w : Bool) (d : Keys) : (s.setWait w d).randNo = s.randNo := rfl
@[simp] theorem State.getV_setWait (w : Bool) (d : Keys) (r : Reg) : (s.setWait w d).getV r = s.getV r := rfl
@[simp] theorem State.readByte_setWait (w : Bool) (d : Keys) (k : Nat) : (s.setWait w d).readByte k = s.readByte k := rfl

/-! ### push -/

@[simp] theorem State.config_push (a : Addr) (h : s.sp.val < 16) : (s.push a h).config = s.config := rfl
@[simp] theorem State.mem_push (a : Addr) (h : s.sp.val < 16) : (s.push a h).mem = s.mem := rfl
@[simp] theorem State.v_push (a : Addr) (h : s.sp.val < 16) : (s.push a h).v = s.v := rfl
@[simp] theorem State.i_push (a : Addr) (h : s.sp.val < 16) : (s.push a h).i = s.i := rfl
@[simp] theorem State.pc_push (a : Addr) (h : s.sp.val < 16) : (s.push a h).pc = s.pc := rfl
@[simp] theorem State.stack_push (a : Addr) (h : s.sp.val < 16) : (s.push a h).stack = s.stack.set s.sp.val a h := rfl
@[simp] theorem State.sp_push (a : Addr) (h : s.sp.val < 16) : (s.push a h).sp = ⟨s.sp.val + 1, by omega⟩ := rfl
@[simp] theorem State.dt_push (a : Addr) (h : s.sp.val < 16) : (s.push a h).dt = s.dt := rfl
@[simp] theorem State.st_push (a : Addr) (h : s.sp.val < 16) : (s.push a h).st = s.st := rfl
@[simp] theorem State.fb_push (a : Addr) (h : s.sp.val < 16) : (s.push a h).fb = s.fb := rfl
@[simp] theorem State.key_push (a : Addr) (h : s.sp.val < 16) : (s.push a h).key = s.key := rfl
@[simp] theorem State.status_push (a : Addr) (h : s.sp.val < 16) : (s.push a h).status = s.status := rfl
@[simp] theorem State.kwait_push (a : Addr) (h : s.sp.val < 16) : (s.push a h).kwait = s.kwait := rfl
@[simp] theorem State.kprev_push (a : Addr) (h : s.sp.val < 16) : (s.push a h).kprev = s.kprev := rfl
@[simp] theorem State.fbOut_push (a : Addr) (h : s.sp.val < 16) : (s.push a h).fbOut = s.fbOut := rfl
@[simp] theorem State.events_push (a : Addr) (h : s.sp.val < 16) : (s.push a h).events = s.events := rfl
@[simp] theorem State.inputs_push (a : Addr) (h : s.sp.val < 16) : (s.push a h).inputs = s.inputs := rfl
@[simp] theorem State.inputNo_push (a : Addr) (h : s.sp.val < 16) : (s.push a h).inputNo = s.inputNo := rfl
@[simp] theorem State.rands_push (a : Addr) (h : s.sp.val < 16) : (s.push a h).rands = s.rands := rfl
@[simp] theorem State.randNo_push (a : Addr) (h : s.sp.val < 16) : (s.push a h).randNo = s.randNo := rfl
@[simp] theorem State.getV_push (a : Addr) (h : s.sp.val < 16) (r : Reg) : (s.push a h).getV r = s.getV r := rfl
@[simp] theorem State.readByte_push (a : Addr) (h : s.sp.val < 16) (k : Nat) : (s.push a h).readByte k = s.readByte k := rfl

/-! ### pop -/

@[simp] theorem State.config_pop : s.pop.config = s.config := rfl
@[simp] theorem State.mem_pop : s.pop.mem = s.mem := rfl
@[simp] theorem State.v_pop : s.pop.v = s.v := rfl
@[simp] theorem State.i_pop : s.pop.i = s.i := rfl
@[simp] theorem State.pc_pop : s.pop.pc = s.pc := rfl
@[simp] theorem State.stack_pop : s.pop.stack = s.stack := rfl
@[simp] theorem State.sp_pop : s.pop.sp = ⟨s.sp.val - 1, by omega⟩ := rfl
@[simp] theorem State.dt_pop : s.pop.dt = s.dt := rfl
@[simp] theorem State.st_pop : s.pop.st = s.st := rfl
@[simp] theorem State.fb_pop : s.pop.fb = s.fb := rfl
@[simp] theorem State.key_pop : s.pop.key = s.key := rfl
@[simp] theorem State.status_pop : s.pop.status = s.status := rfl
@[simp] theorem State.kwait_pop : s.pop.kwait = s.kwait := rfl
@[simp] theorem State.kprev_pop : s.pop.kprev = s.kprev := rfl
@[simp] theorem State.fbOut_pop : s.pop.fbOut = s.fbOut := rfl
@[simp] theorem State.events_pop : s.pop.events = s.events := rfl
@[simp] theorem State.inputs_pop : s.pop.inputs = s.inputs := rfl
@[simp] theorem State.inputNo_pop : s.pop.inputNo = s.inputNo := rfl
@[simp] theorem State.rands_pop : s.pop.rands = s.rands := rfl
@[simp] theorem State.randNo_pop : s.pop.randNo = s.randNo := rfl
@[simp] theorem State.getV_pop (r : Reg) : s.pop.getV r = s.getV r := rfl
@[simp] theorem State.readByte_pop (k : Nat) : s.pop.readByte k = s.readByte k := rfl

/-! ### setFb -/

@[simp] theorem State.config_setFb (fb : Framebuffer) : (s.setFb fb).config = s.config := rfl
@[simp] theorem State.mem_setFb (fb : Framebuffer) : (s.setFb fb).mem = s.mem := rfl
@[simp] theorem State.v_setFb (fb : Framebuffer) : (s.setFb fb).v = s.v := rfl
@[simp] theorem State.i_setFb (fb : Framebuffer) : (s.setFb fb).i = s.i := rfl
@[simp] theorem State.pc_setFb (fb : Framebuffer) : (s.setFb fb).pc = s.pc := rfl
@[simp] theorem State.stack_setFb (fb : Framebuffer) : (s.setFb fb).stack = s.stack := rfl
@[simp] theorem State.sp_setFb (fb : Framebuffer) : (s.setFb fb).sp = s.sp := rfl
@[simp] theorem State.dt_setFb (fb : Framebuffer) : (s.setFb fb).dt = s.dt := rfl
@[simp] theorem State.st_setFb (fb : Framebuffer) : (s.setFb fb).st = s.st := rfl
@[simp] theorem State.fb_setFb (fb : Framebuffer) : (s.setFb fb).fb = fb := rfl
@[simp] theorem State.key_setFb (fb : Framebuffer) : (s.setFb fb).key = s.key := rfl
@[simp] theorem State.status_setFb (fb : Framebuffer) : (s.setFb fb).status = s.status := rfl
@[simp] theorem State.kwait_setFb (fb : Framebuffer) : (s.setFb fb).kwait = s.kwait := rfl
@[simp] theorem State.kprev_setFb (fb : Framebuffer) : (s.setFb fb).kprev = s.kprev := rfl
@[simp] theorem State.fbOut_setFb (fb : Framebuffer) : (s.setFb fb).fbOut = s.fbOut := rfl
@[simp] theorem State.events_setFb (fb : Framebuffer) : (s.setFb fb).events = s.events := rfl
@[simp] theorem State.inputs_setFb (fb : Framebuffer) : (s.setFb fb).inputs = s.inputs := rfl
@[simp] theorem State.inputNo_setFb (fb : Framebuffer) : (s.setFb fb).inputNo = s.inputNo := rfl
@[simp] theorem State.rands_setFb (fb : Framebuffer) : (s.setFb fb).rands = s.rands := rfl
@[simp] theorem State.randNo_setFb (fb : Framebuffer) : (s.setFb fb).randNo = s.randNo := rfl
@[simp] theorem State.getV_setFb (fb : Framebuffer) (r : Reg) : (s.setFb fb).getV r = s.getV r := rfl
@[simp] theorem State.readByte_setFb (fb : Framebuffer) (k : Nat) : (s.setFb fb).readByte k = s.readByte k := rfl

/-! ### setStatus -/

@[simp] theorem State.config_setStatus (st : Status) : (s.setStatus st).config = s.config := rfl
@[simp] theorem State.mem_setStatus (st : Status) : (s.setStatus st).mem = s.mem := rfl
@[simp] theorem State.v_setStatus (st : Status) : (s.setStatus st).v = s.v := rfl
@[simp] theorem State.i_setStatus (st : Status) : (s.setStatus st).i = s.i := rfl
@[simp] theorem State.pc_setStatus (st : Status) : (s.setStatus st).pc = s.pc := rfl
@[simp] theorem State.stack_setStatus (st : Status) : (s.setStatus st).stack = s.stack := rfl
@[simp] theorem State.sp_setStatus (st : Status) : (s.setStatus st).sp = s.sp := rfl
@[simp] theorem State.dt_setStatus (st : Status) : (s.setStatus st).dt = s.dt := rfl
@[simp] theorem State.st_setStatus (st : Status) : (s.setStatus st).st = s.st := rfl
@[simp] theorem State.fb_setStatus (st : Status) : (s.setStatus st).fb = s.fb := rfl
@[simp] theorem State.key_setStatus (st : Status) : (s.setStatus st).key = s.key := rfl
@[simp] theorem State.status_setStatus (st : Status) : (s.setStatus st).status = st := rfl
@[simp] theorem State.kwait_setStatus (st : Status) : (s.setStatus st).kwait = s.kwait := rfl
@[simp] theorem State.kprev_setStatus (st : Status) : (s.setStatus st).kprev = s.kprev := rfl
@[simp] theorem State.fbOut_setStatus (st : Status) : (s.setStatus st).fbOut = s.fbOut := rfl
@[simp] theorem State.events_setStatus (st : Status) : (s.setStatus st).events = s.events := rfl
@[simp] theorem State.inputs_setStatus (st : Status) : (s.setStatus st).inputs = s.inputs := rfl
@[simp] theorem State.inputNo_setStatus (st : Status) : (s.setStatus st).inputNo = s.inputNo := rfl
@[simp] theorem State.rands_setStatus (st : Status) : (s.setStatus st).rands = s.rands := rfl
@[simp] theorem State.randNo_setStatus (st : Status) : (s.setStatus st).randNo = s.randNo := rfl
@[simp] theorem State.getV_setStatus (st : Status) (r : Reg) : (s.setStatus st).getV r = s.getV r := rfl
@[simp] theorem State.readByte_setStatus (st : Status) (k : Nat) : (s.setStatus st).readByte k = s.readByte k := rfl

/-! ### emit -/

@[simp] theorem State.config_emit (e : Event) : (s.emit e).config = s.config := rfl
@[simp] theorem State.mem_emit (e : Event) : (s.emit e).mem = s.mem := rfl
@[simp] theorem State.v_emit (e : Event) : (s.emit e).v = s.v := rfl
@[simp] theorem State.i_emit (e : Event) : (s.emit e).i = s.i := rfl
@[simp] theorem State.pc_emit (e : Event) : (s.emit e).pc = s.pc := rfl
@[simp] theorem State.stack_emit (e : Event) : (s.emit e).stack = s.stack := rfl
@[simp] theorem State.sp_emit (e : Event) : (s.emit e).sp = s.sp := rfl
@[simp] theorem State.dt_emit (e : Event) : (s.emit e).dt = s.dt := rfl
@[simp] theorem State.st_emit (e : Event) : (s.emit e).st = s.st := rfl
@[simp] theorem State.fb_emit (e : Event) : (s.emit e).fb = s.fb := rfl
@[simp] theorem State.key_emit (e : Event) : (s.emit e).key = s.key := rfl
@[simp] theorem State.status_emit (e : Event) : (s.emit e).status = s.status := rfl
@[simp] theorem State.kwait_emit (e : Event) : (s.emit e).kwait = s.kwait := rfl
@[simp] theorem State.kprev_emit (e : Event) : (s.emit e).kprev = s.kprev := rfl
@[simp] theorem State.fbOut_emit (e : Event) : (s.emit e).fbOut = s.fbOut := rfl
@[simp] theorem State.events_emit (e : Event) : (s.emit e).events = s.events ++ [e] := rfl
@[simp] theorem State.inputs_emit (e : Event) : (s.emit e).inputs = s.inputs := rfl
@[simp] theorem State.inputNo_emit (e : Event) : (s.emit e).inputNo = s.inputNo := rfl
@[simp] theorem State.rands_emit (e : Event) : (s.emit e).rands = s.rands := rfl
@[simp] theorem State.randNo_emit (e : Event) : (s.emit e).randNo = s.randNo := rfl
@[simp] theorem State.getV_emit (e : Event) (r : Reg) : (s.emit e).getV r = s.getV r := rfl
@[simp] theorem State.readByte_emit (e : Event) (k : Nat) : (s.emit e).readByte k = s.readByte k := rfl

/-! ### takeRand -/

@[simp] theorem State.config_takeRand : s.takeRand.config = s.config := rfl
@[simp] theorem State.mem_takeRand : s.takeRand.mem = s.mem := rfl
@[simp] theorem State.v_takeRand : s.takeRand.v = s.v := rfl
@[simp] theorem State.i_takeRand : s.takeRand.i = s.i := rfl
@[simp] theorem State.pc_takeRand : s.takeRand.pc = s.pc := rfl
@[simp] theorem State.stack_takeRand : s.takeRand.stack = s.stack := rfl
@[simp] theorem State.sp_takeRand : s.takeRand.sp = s.sp := rfl
@[simp] theorem State.dt_takeRand : s.takeRand.dt = s.dt := rfl
@[simp] theorem State.st_takeRand : s.takeRand.st = s.st := rfl
@[simp] theorem State.fb_takeRand : s.takeRand.fb = s.fb := rfl
@[simp] theorem State.key_takeRand : s.takeRand.key = s.key := rfl
@[simp] theorem State.status_takeRand : s.takeRand.status = s.status := rfl
@[simp] theorem State.kwait_takeRand : s.takeRand.kwait = s.kwait := rfl
@[simp] theorem State.kprev_takeRand : s.takeRand.kprev = s.kprev := rfl
@[simp] theorem State.fbOut_takeRand : s.takeRand.fbOut = s.fbOut := rfl
@[simp] theorem State.events_takeRand : s.takeRand.events = s.events := rfl
@[simp] theorem State.inputs_takeRand : s.takeRand.inputs = s.inputs := rfl
@[simp] theorem State.inputNo_takeRand : s.takeRand.inputNo = s.inputNo := rfl
@[simp] theorem State.rands_takeRand : s.takeRand.rands = s.rands.tail := rfl
@[simp] theorem State.randNo_takeRand : s.takeRand.randNo = s.randNo + 1 := rfl
@[simp] theorem State.getV_takeRand (r : Reg) : s.takeRand.getV r = s.getV r := rfl
@[simp] theorem State.readByte_takeRand (k : Nat) : s.takeRand.readByte k = s.readByte k := rfl

/-! ### takeInput -/

@[simp] theorem State.config_takeInput : s.takeInput.config = s.config := rfl
@[simp] theorem State.mem_takeInput : s.takeInput.mem = s.mem := rfl
@[simp] theorem State.v_takeInput : s.takeInput.v = s.v := rfl
@[simp] theorem State.i_takeInput : s.takeInput.i = s.i := rfl
@[simp] theorem State.pc_takeInput : s.takeInput.pc = s.pc := rfl
@[simp] theorem State.stack_takeInput : s.takeInput.stack = s.stack := rfl
@[simp] theorem State.sp_takeInput : s.takeInput.sp = s.sp := rfl
@[simp] theorem State.dt_takeInput : s.takeInput.dt = s.dt := rfl
@[simp] theorem State.st_takeInput : s.takeInput.st = s.st := rfl
@[simp] theorem State.fb_takeInput : s.takeInput.fb = s.fb := rfl
@[simp] theorem State.key_takeInput : s.takeInput.key = s.key := rfl
@[simp] theorem State.status_takeInput : s.takeInput.status = s.status := rfl
@[simp] theorem State.kwait_takeInput : s.takeInput.kwait = s.kwait := rfl
@[simp] theorem State.kprev_takeInput : s.takeInput.kprev = s.kprev := rfl
@[simp] theorem State.fbOut_takeInput : s.takeInput.fbOut = s.fbOut := rfl
@[simp] theorem State.events_takeInput : s.takeInput.events = s.events := rfl
@[simp] theorem State.inputs_takeInput : s.takeInput.inputs = s.inputs.tail := rfl
@[simp] theorem State.inputNo_takeInput : s.takeInput.inputNo = s.inputNo + 1 := rfl
@[simp] theorem State.rands_takeInput : s.takeInput.rands = s.rands := rfl
@[simp] theorem State.randNo_takeInput : s.takeInput.randNo = s.randNo := rfl
@[simp] theorem State.getV_takeInput (r : Reg) : s.takeInput.getV r = s.getV r := rfl
@[simp] theorem State.readByte_takeInput (k : Nat) : s.takeInput.readByte k = s.readByte k := rfl

/-! ### decay -/

@[simp] theorem State.config_decay (n : Nat) : (s.decay n).config = s.config := rfl
@[simp] theorem State.mem_decay (n : Nat) : (s.decay n).mem = s.mem := rfl
@[simp] theorem State.v_decay (n : Nat) : (s.decay n).v = s.v := rfl
@[simp] theorem State.i_decay (n : Nat) : (s.decay n).i = s.i := rfl
@[simp] theorem State.pc_decay (n : Nat) : (s.decay n).pc = s.pc := rfl
@[simp] theorem State.stack_decay (n : Nat) : (s.decay n).stack = s.stack := rfl
@[simp] theorem State.sp_decay (n : Nat) : (s.decay n).sp = s.sp := rfl
@[simp] theorem State.dt_decay (n : Nat) : (s.decay n).dt = satSub s.dt n := rfl
@[simp] theorem State.st_decay (n : Nat) : (s.decay n).st = satSub s.st n := rfl
@[simp] theorem State.fb_decay (n : Nat) : (s.decay n).fb = s.fb := rfl
@[simp] theorem State.key_decay (n : Nat) : (s.decay n).key = s.key := rfl
@[simp] theorem State.status_decay (n : Nat) : (s.decay n).status = s.status := rfl
@[simp] theorem State.kwait_decay (n : Nat) : (s.decay n).kwait = s.kwait := rfl
@[simp] theorem State.kprev_decay (n : Nat) : (s.decay n).kprev = s.kprev := rfl
@[simp] theorem State.fbOut_decay (n : Nat) : (s.decay n).fbOut = s.fbOut := rfl
@[simp] theorem State.events_decay (n : Nat) : (s.decay n).events = s.events := rfl
@[simp] theorem State.inputs_decay (n : Nat) : (s.decay n).inputs = s.inputs := rfl
@[simp] theorem State.inputNo_decay (n : Nat) : (s.decay n).inputNo = s.inputNo := rfl
@[simp] theorem State.rands_decay (n : Nat) : (s.decay n).rands = s.rands := rfl
@[simp] theorem State.randNo_decay (n : Nat) : (s.decay n).randNo = s.randNo := rfl
@[simp] theorem State.getV_decay (n : Nat) (r : Reg) : (s.decay n).getV r = s.getV r := rfl
@[simp] theorem State.readByte_decay (n : Nat) (k : Nat) : (s.decay n).readByte k = s.readByte k := rfl

/-! ### Derived updates, in terms of the ones above -/

@[simp] theorem State.advance_eq : s.advance = s.goto (nextPc s.pc) := rfl
@[simp] theorem State.skipIf_eq (c : Bool) : s.skipIf c = s.goto (if c then skipPc s.pc else nextPc s.pc) := rfl
@[simp] theorem State.setFlag_eq (c : Bool) : s.setFlag c = s.setV Reg.vf (flagByte c) := rfl
@[simp] theorem State.raise_eq (e : FatalError) : s.raise e = s.setStatus (.faulted e) := rfl
@[simp] theorem State.resultThenFlag_eq (x : Reg) (b : Byte) (c : Bool) :
    s.resultThenFlag x b c = ((s.setV x b).setV Reg.vf (flagByte c)).goto (nextPc s.pc) := rfl
@[simp] theorem State.showSprite_eq (p : Canvas) :
    s.showSprite p = ((s.setFb p.fb).setV Reg.vf (flagByte p.coll)).goto (nextPc s.pc) := rfl
@[simp] theorem State.stOut_eq : s.stOut = s.st := rfl

end Sys2Proof.Machine
end

