-- ==== Sys2Proof/Laws/Encoding.lean ====
section
/-! SUPPORT. The fields of an encoded word, a word put together from its fields, and every instruction well
formed. -/

namespace Sys2Proof

theorem Instr.wellFormed_all (i : Instr) : i.wellFormed = true := by
  cases i <;>
    simp only [Instr.wellFormed, Instr.operands, operandsFit, List.all_cons, List.all_nil, Bool.and_true, Bool.and_eq_true,
      decide_eq_true_eq] <;> omega

/-! ### Fields as numbers (R10, R72) -/

theorem fieldF_eq (w : Word) : fieldF w = w.toNat / 4096 := by simp only [fieldF, bitsOf]; omega
theorem fieldNNN_toNat (w : Word) : (fieldNNN w).toNat = w.toNat % 4096 := by simp [fieldNNN, bitsOf]
theorem fieldX_val (w : Word) : (fieldX w).val = w.toNat / 256 % 16 := by simp [fieldX, bitsOf]
theorem fieldY_val (w : Word) : (fieldY w).val = w.toNat / 16 % 16 := by simp [fieldY, bitsOf]
theorem fieldKK_toNat (w : Word) : (fieldKK w).toNat = w.toNat % 256 := by simp [fieldKK, bitsOf]
theorem fieldN_val (w : Word) : (fieldN w).val = w.toNat % 16 := by simp [fieldN, bitsOf]

/-! ### Words as numbers -/

theorem wordFNNN_toNat (f : Fin 16) (nnn : Addr12) : (wordFNNN f nnn).toNat = f.val * 4096 + nnn.toNat := by
  simp only [wordFNNN, BitVec.toNat_ofNat]; omega
theorem wordFXKK_toNat (f : Fin 16) (x : Reg) (kk : Byte) :
    (wordFXKK f x kk).toNat = f.val * 4096 + x.val * 256 + kk.toNat := by
  simp only [wordFXKK, BitVec.toNat_ofNat]; omega
theorem wordFXYN_toNat (f : Fin 16) (x y : Reg) (n : Fin 16) :
    (wordFXYN f x y n).toNat = f.val * 4096 + x.val * 256 + y.val * 16 + n.val := by
  simp only [wordFXYN, BitVec.toNat_ofNat]; omega
theorem wordOfBytes_toNat (hi lo : Byte) : (wordOfBytes hi lo).toNat = 256 * hi.toNat + lo.toNat := by
  simp only [wordOfBytes, BitVec.toNat_ofNat]; omega

/-- A word laid out as its two bytes and read back big-endian is that word (R54). -/
theorem wordOfBytes_highByte_lowByte (w : Word) : wordOfBytes (highByte w) (lowByte w) = w := by
  apply BitVec.eq_of_toNat_eq
  simp only [wordOfBytes_toNat, highByte, lowByte, bitsOf, BitVec.toNat_ofNat]
  omega

/-! ### The fields of a word built from fields (R72) -/

@[simp] theorem fieldF_wordFNNN (f : Fin 16) (nnn : Addr12) : fieldF (wordFNNN f nnn) = f.val := by
  rw [fieldF_eq, wordFNNN_toNat]; omega
@[simp] theorem fieldNNN_wordFNNN (f : Fin 16) (nnn : Addr12) : fieldNNN (wordFNNN f nnn) = nnn := by
  apply BitVec.eq_of_toNat_eq; rw [fieldNNN_toNat, wordFNNN_toNat]; omega
@[simp] theorem fieldF_wordFXKK (f : Fin 16) (x : Reg) (kk : Byte) : fieldF (wordFXKK f x kk) = f.val := by
  rw [fieldF_eq, wordFXKK_toNat]; omega
@[simp] theorem fieldX_wordFXKK (f : Fin 16) (x : Reg) (kk : Byte) : fieldX (wordFXKK f x kk) = x := by
  apply Fin.ext; rw [fieldX_val, wordFXKK_toNat]; omega
@[simp] theorem fieldKK_wordFXKK (f : Fin 16) (x : Reg) (kk : Byte) : fieldKK (wordFXKK f x kk) = kk := by
  apply BitVec.eq_of_toNat_eq; rw [fieldKK_toNat, wordFXKK_toNat]; omega
@[simp] theorem fieldF_wordFXYN (f : Fin 16) (x y : Reg) (n : Fin 16) : fieldF (wordFXYN f x y n) = f.val := by
  rw [fieldF_eq, wordFXYN_toNat]; omega
@[simp] theorem fieldX_wordFXYN (f : Fin 16) (x y : Reg) (n : Fin 16) : fieldX (wordFXYN f x y n) = x := by
  apply Fin.ext; rw [fieldX_val, wordFXYN_toNat]; omega
@[simp] theorem fieldY_wordFXYN (f : Fin 16) (x y : Reg) (n : Fin 16) : fieldY (wordFXYN f x y n) = y := by
  apply Fin.ext; rw [fieldY_val, wordFXYN_toNat]; omega
@[simp] theorem fieldN_wordFXYN (f : Fin 16) (x y : Reg) (n : Fin 16) : fieldN (wordFXYN f x y n) = n := by
  apply Fin.ext; rw [fieldN_val, wordFXYN_toNat]; omega

/-! ### A word is its fields -/

theorem word_eq_wordFNNN {w : Word} {f : Fin 16} (h : fieldF w = f.val) : w = wordFNNN f (fieldNNN w) := by
  apply BitVec.eq_of_toNat_eq; rw [fieldF_eq] at h; rw [wordFNNN_toNat, fieldNNN_toNat]; omega
theorem word_eq_wordFXKK {w : Word} {f : Fin 16} (h : fieldF w = f.val) : w = wordFXKK f (fieldX w) (fieldKK w) := by
  apply BitVec.eq_of_toNat_eq; rw [fieldF_eq] at h; rw [wordFXKK_toNat, fieldX_val, fieldKK_toNat]; omega
theorem word_eq_wordFXYN {w : Word} {f : Fin 16} (h : fieldF w = f.val) :
    w = wordFXYN f (fieldX w) (fieldY w) (fieldN w) := by
  apply BitVec.eq_of_toNat_eq; rw [fieldF_eq] at h; rw [wordFXYN_toNat, fieldX_val, fieldY_val, fieldN_val]; omega

/-! ### The masks of the opcode map (R80) as numbers -/

theorem toNat_eq_of_bits {w : Word} {n : Nat} (hn : n < 65536) (h : ∀ j, j < 16 → w.toNat.testBit j = n.testBit j) :
    w.toNat = n := by
  have hw : w.toNat < 65536 := w.isLt
  refine Nat.eq_of_testBit_eq fun j => ?_
  by_cases hj : j < 16
  · exact h j hj
  · have : 65536 ≤ 2 ^ j := (Nat.pow_le_pow_right (by decide) (by omega) : 2 ^ 16 ≤ 2 ^ j)
    rw [Nat.testBit_lt_two_pow (by omega), Nat.testBit_lt_two_pow (by omega)]

theorem and_F000 (w : Word) : (w &&& 0xF000#16).toNat = w.toNat / 4096 * 4096 := by
  refine toNat_eq_of_bits (by omega) fun j hj => ?_
  rw [BitVec.toNat_and, Nat.testBit_and]
  interval_cases j <;> simp [Nat.testBit_eq_decide_div_mod_eq] <;> omega

theorem and_F00F (w : Word) : (w &&& 0xF00F#16).toNat = w.toNat / 4096 * 4096 + w.toNat % 16 := by
  refine toNat_eq_of_bits (by omega) fun j hj => ?_
  rw [BitVec.toNat_and, Nat.testBit_and]
  interval_cases j <;> simp [Nat.testBit_eq_decide_div_mod_eq] <;> omega

theorem and_F0FF (w : Word) : (w &&& 0xF0FF#16).toNat = w.toNat / 4096 * 4096 + w.toNat % 256 := by
  refine toNat_eq_of_bits (by omega) fun j hj => ?_
  rw [BitVec.toNat_and, Nat.testBit_and]
  interval_cases j <;> simp [Nat.testBit_eq_decide_div_mod_eq] <;> omega

theorem and_FFF0 (w : Word) : (w &&& 0xFFF0#16).toNat = w.toNat / 16 * 16 := by
  refine toNat_eq_of_bits (by omega) fun j hj => ?_
  rw [BitVec.toNat_and, Nat.testBit_and]
  interval_cases j <;> simp [Nat.testBit_eq_decide_div_mod_eq] <;> omega

theorem and_FFFF (w : Word) : (w &&& 0xFFFF#16).toNat = w.toNat := by
  rw [show (0xFFFF#16) = BitVec.allOnes 16 from rfl, BitVec.and_allOnes]

/-- A row of the opcode map as an equation between numbers. -/
theorem Instr.rowHolds_iff (i : Instr) (w : Word) : i.rowHolds w = true ↔ (w &&& i.mask).toNat = i.code.toNat := by
  rw [Instr.rowHolds, beq_iff_eq, BitVec.toNat_inj]

end Sys2Proof
end

