-- ==== Sys2Proof/Laws/Memory.lean ====
section
/-! SUPPORT. Memory: read after write, and every memory operation keeps the canonical form. -/

namespace Sys2Proof.Machine

/-- A weaker lower bound. -/
theorem Memory.wfFrom_mono {font : Font} {lo lo' : Nat} {m : Memory} (h : lo' ≤ lo) (hm : Memory.wfFrom font lo m = true) :
    Memory.wfFrom font lo' m = true := by
  cases m with
  | nil => rfl
  | cons e m =>
    simp only [Memory.wfFrom, Bool.and_eq_true, decide_eq_true_eq] at hm ⊢
    exact ⟨⟨⟨by omega, hm.1.1.2⟩, hm.1.2⟩, hm.2⟩

theorem Memory.listed_insert (m : Memory) (a b : Nat) (v : Byte) :
    Memory.listed (Memory.insert m a v) b = if b = a then some v else Memory.listed m b := by
  induction m with
  | nil => simp [Memory.insert, Memory.listed, eq_comm]
  | cons e m ih =>
    unfold Memory.insert
    split
    · simp [Memory.listed, eq_comm]
    · split
      · subst a; by_cases hb : b = e.1 <;> simp [Memory.listed, hb, eq_comm]
      · by_cases hb : b = e.1
        · subst hb; simp [Memory.listed, *]
        · simp [Memory.listed, ih, Ne.symm hb]

theorem Memory.listed_erase (m : Memory) (a b : Nat) :
    Memory.listed (Memory.erase m a) b = if b = a then none else Memory.listed m b := by
  induction m with
  | nil => simp [Memory.erase, Memory.listed]
  | cons e m ih =>
    unfold Memory.erase
    split
    · subst a; rw [ih]; by_cases hb : b = e.1
      · rw [if_pos hb, if_pos hb]
      · simp [Memory.listed, hb, Ne.symm hb]
    · by_cases hb : b = e.1
      · subst hb; simp [Memory.listed, *]
      · simp [Memory.listed, ih, Ne.symm hb]

/-- Read after write (R58): the cell written holds the value, every other cell is unchanged. -/
theorem Memory.read_write (font : Font) (m : Memory) (a b : Nat) (v : Byte) :
    Memory.read font (Memory.write font m a v) b = if b = a then v else Memory.read font m b := by
  unfold Memory.read Memory.write
  split
  · rw [Memory.listed_erase]; by_cases hb : b = a <;> simp [*]
  · rw [Memory.listed_insert]; by_cases hb : b = a <;> simp [*]

theorem Memory.wfFrom_erase {font : Font} {lo a : Nat} {m : Memory} (hm : Memory.wfFrom font lo m = true) :
    Memory.wfFrom font lo (Memory.erase m a) = true := by
  induction m generalizing lo with
  | nil => rfl
  | cons e m ih =>
    simp only [Memory.wfFrom, Bool.and_eq_true, decide_eq_true_eq] at hm
    unfold Memory.erase
    split
    · exact Memory.wfFrom_mono (lo := e.1 + 1) (by omega) (ih hm.2)
    · simp only [Memory.wfFrom, Bool.and_eq_true, decide_eq_true_eq]
      exact ⟨hm.1, ih hm.2⟩

theorem Memory.wfFrom_insert {font : Font} {lo a : Nat} {v : Byte} {m : Memory} (hm : Memory.wfFrom font lo m = true)
    (hlo : lo ≤ a) (ha : a < memSize) (hv : v ≠ resetByte font a) : Memory.wfFrom font lo (Memory.insert m a v) = true := by
  induction m generalizing lo with
  | nil => simp [Memory.insert, Memory.wfFrom, hlo, ha, hv]
  | cons e m ih =>
    simp only [Memory.wfFrom, Bool.and_eq_true, decide_eq_true_eq] at hm
    unfold Memory.insert
    split
    · simp only [Memory.wfFrom, Bool.and_eq_true, decide_eq_true_eq]
      exact ⟨⟨⟨hlo, ha⟩, hv⟩, ⟨⟨⟨by omega, hm.1.1.2⟩, hm.1.2⟩, hm.2⟩⟩
    · split
      · subst a
        simp only [Memory.wfFrom, Bool.and_eq_true, decide_eq_true_eq]
        exact ⟨⟨⟨hlo, ha⟩, hv⟩, hm.2⟩
      · simp only [Memory.wfFrom, Bool.and_eq_true, decide_eq_true_eq]
        exact ⟨hm.1, ih hm.2 (by omega)⟩

/-- A write inside memory keeps the canonical form. -/
theorem Memory.wf_write {font : Font} {m : Memory} (hm : Memory.wf font m = true) {a : Nat} (ha : a < memSize) (v : Byte) :
    Memory.wf font (Memory.write font m a v) = true := by
  unfold Memory.write
  split
  · exact Memory.wfFrom_erase hm
  · exact Memory.wfFrom_insert hm (Nat.zero_le _) ha ‹_›

/-- A run of writes inside memory keeps the canonical form. -/
theorem Memory.wf_writeList {font : Font} {m : Memory} (hm : Memory.wf font m = true) {a : Nat} {vs : List Byte}
    (ha : a + vs.length ≤ memSize) : Memory.wf font (Memory.writeList font m a vs) = true := by
  induction vs generalizing m a with
  | nil => exact hm
  | cons v vs ih =>
    simp only [List.length_cons] at ha
    exact ih (Memory.wf_write hm (by omega) v) (by omega)

/-- Read after a run of writes: byte `k` of the run at `a + k`, every other cell unchanged. -/
theorem Memory.read_writeList (font : Font) (m : Memory) (a : Nat) (vs : List Byte) (b : Nat) :
    Memory.read font (Memory.writeList font m a vs) b =
      if a ≤ b ∧ b < a + vs.length then vs.getD (b - a) 0 else Memory.read font m b := by
  induction vs generalizing m a with
  | nil => simp only [Memory.writeList, List.length_nil]; rw [if_neg (by omega)]
  | cons v vs ih =>
    simp only [List.length_cons] at ih ⊢
    rw [Memory.writeList, ih, Memory.read_write]
    by_cases hb : b = a
    · subst hb; rw [if_neg (by omega), if_pos rfl, if_pos (by omega)]; simp
    · rw [if_neg hb]
      by_cases hc : a ≤ b ∧ b < a + (vs.length + 1)
      · rw [if_pos (by omega), if_pos hc]
        obtain ⟨k, rfl⟩ : ∃ k, b = a + 1 + k := ⟨b - a - 1, by omega⟩
        have : a + 1 + k - a = k + 1 := by omega
        simp [this]
      · rw [if_neg (by omega), if_neg hc]

/-- What every byte reads as after `writeBytes`. -/
theorem State.readByte_writeBytes (s : State) (a : Nat) (vs : List Byte) (b : Nat) :
    (s.writeBytes a vs).readByte b = if a ≤ b ∧ b < a + vs.length then vs.getD (b - a) 0 else s.readByte b :=
  Memory.read_writeList s.config.font s.mem a vs b

/-- `writeBytes` inside memory keeps the canonical form. -/
theorem State.memoryCanonical_writeBytes {s : State} (hs : s.memoryCanonical) {a : Nat} {vs : List Byte}
    (ha : a + vs.length ≤ memSize) : (s.writeBytes a vs).memoryCanonical :=
  Memory.wf_writeList hs ha

end Sys2Proof.Machine
end

