-- ==== Sys2Proof/Laws/Ops.lean ====
section
/-! SUPPORT. One lemma per shared operation over registers, the stack, the range check and the framebuffer,
saying once everything it does. -/

namespace Sys2Proof.Machine

variable (s : State)

/-! ### Registers -/

theorem State.getV_setV (x r : Reg) (b : Byte) : (s.setV x b).getV r = if r = x then b else s.getV r := by
  simp only [State.getV, State.setV, Fin.getElem_fin, Vector.getElem_set, Fin.ext_iff, eq_comm]

@[simp] theorem State.getV_setV_self (x : Reg) (b : Byte) : (s.setV x b).getV x = b := by simp [State.getV_setV]

theorem State.getV_setV_of_ne {x r : Reg} (h : r ≠ x) (b : Byte) : (s.setV x b).getV r = s.getV r := by
  simp [State.getV_setV, h]

theorem State.getV_loadRegs (n : Nat) (f : Nat → Byte) (r : Reg) :
    (s.loadRegs n f).getV r = if r.val < n then f r.val else s.getV r := by
  simp [State.getV, State.loadRegs]

/-- Two states whose registers read the same hold the same registers. -/
theorem State.v_ext {s t : State} (h : ∀ r, s.getV r = t.getV r) : s.v = t.v :=
  Vector.ext fun k hk => h ⟨k, hk⟩

/-- The bytes FX55 stores: register `k` at place `k`, up to `x`. -/
theorem State.regsUpTo_length (x : Reg) : (s.regsUpTo x).length = x.val + 1 := by
  simp [State.regsUpTo]

theorem State.regsUpTo_getD (x k : Reg) (h : k ≤ x) : (s.regsUpTo x).getD k.val 0 = s.getV k := by
  have hk : k.val < x.val + 1 := Nat.lt_succ_of_le h
  simp [State.regsUpTo, State.getV, hk]

/-! ### The range check -/

/-- Everything `guardRange` can answer (R202). -/
theorem State.guardRange_cases (w : Word) (base n : Nat) (body : State) :
    (base + n - 1 ≤ 0xFFF ∧ s.guardRange w base n body = body) ∨
    (base + n - 1 > 0xFFF ∧ s.guardRange w base n body = s.raise (.outOfBounds s.pc (some w) (max base 0x1000))) := by
  unfold State.guardRange
  by_cases h : base + n - 1 > 0xFFF
  · exact .inr ⟨h, if_pos h⟩
  · exact .inl ⟨by omega, if_neg h⟩

/-! ### Framebuffer -/

/-- Inverting one pixel inverts that pixel and no other (R230). -/
theorem Framebuffer.pixel_flip (fb : Framebuffer) (r c r' c' : Nat) :
    (fb.flip r c).pixel r' c' = if r' % 32 = r % 32 ∧ c' % 64 = c % 64 then !fb.pixel r' c' else fb.pixel r' c' := by
  have hc : c' % 64 < 64 := Nat.mod_lt _ (by decide)
  simp only [Framebuffer.pixel, Framebuffer.flip, Vector.getElem_set]
  by_cases hr : r % 32 = r' % 32
  · by_cases hcc : c % 64 = c' % 64
    · simp [hr, hcc, hc]
    · simp [hr, hcc, Ne.symm hcc]
  · simp [hr, Ne.symm hr]

/-- Two framebuffers with the same pixels are equal. -/
theorem Framebuffer.ext_pixel {f g : Framebuffer} (h : ∀ r c, r < 32 → c < 64 → f.pixel r c = g.pixel r c) : f = g := by
  refine Vector.ext fun r hr => BitVec.eq_of_getLsbD_eq fun c hc => ?_
  have := h r c hr hc
  simpa [Framebuffer.pixel, Nat.mod_eq_of_lt hr, Nat.mod_eq_of_lt hc] using this

@[simp] theorem Framebuffer.pixel_blank (r c : Nat) : Framebuffer.blank.pixel r c = false := by
  simp [Framebuffer.pixel, Framebuffer.blank]

/-- One sprite pixel: what every pixel is afterwards, and the collision (R232). -/
theorem drawPixel_spec (p : Canvas) (r c : Nat) (on : Bool) :
    (∀ r' c', (drawPixel p r c on).fb.pixel r' c' =
      (p.fb.pixel r' c' ^^ (on && decide (r' % 32 = r % 32) && decide (c' % 64 = c % 64)))) ∧
    (drawPixel p r c on).coll = (p.coll || (on && p.fb.pixel r c)) := by
  cases on
  · simp [drawPixel]
  · refine ⟨fun r' c' => ?_, by simp [drawPixel]⟩
    simp only [drawPixel, if_true, Framebuffer.pixel_flip]
    by_cases h1 : r' % 32 = r % 32 <;> by_cases h2 : c' % 64 = c % 64 <;> simp [h1, h2]

end Sys2Proof.Machine
end

