-- ==== Sys2Proof/Laws/Cycle.lean ====
section
/-! SUPPORT. The cycle: everything a step can do, said once, and what the end of a cycle leaves and changes. -/

namespace Sys2Proof.Machine

theorem State.fetch_inside {s : State} (h : s.pc.toNat ≤ 0xFFE) :
    s.fetch = .word (wordOfBytes (s.readByte s.pc.toNat) (s.readByte (s.pc.toNat + 1))) := if_neg (by omega)

theorem State.fetch_outside {s : State} (h : s.pc.toNat > 0xFFE) : s.fetch = .outside (max s.pc.toNat 0x1000) := if_pos h

theorem State.fetch_word {s : State} {w : Word} (h : s.fetch = .word w) :
    s.pc.toNat ≤ 0xFFE ∧ w = wordOfBytes (s.readByte s.pc.toNat) (s.readByte (s.pc.toNat + 1)) := by
  by_cases hp : s.pc.toNat > 0xFFE
  · simp [State.fetch_outside hp] at h
  · rw [State.fetch_inside (by omega)] at h
    exact ⟨by omega, (Fetched.word.inj h).symm⟩

/-- The fetch depends on the parameters, memory and pc alone. -/
theorem State.fetch_congr {s t : State} (hc : t.config = s.config) (hm : t.mem = s.mem) (hp : t.pc = s.pc) :
    t.fetch = s.fetch := by
  simp [State.fetch, State.readByte, hc, hm, hp]

theorem step_of_word {s : State} {w : Word} (hs : s.status = .running) (hw : s.fetch = .word w) : step s = s.runWord w := by
  simp [step, cycle, hs, hw]

theorem step_of_decoded {s : State} {w : Word} {i : Instr} (hs : s.status = .running) (hw : s.fetch = .word w)
    (hi : decodeWord w = .ok i) : step s = finish (exec i s) := by
  simp [step_of_word hs hw, State.runWord, hi]

theorem step_of_unknown {s : State} {w : Word} {e : DecodeError} (hs : s.status = .running) (hw : s.fetch = .word w)
    (he : decodeWord w = .error e) : step s = .next (s.handleUnknown w).endCycle := by
  simp [step_of_word hs hw, State.runWord, he, finish]

theorem step_of_outside {s : State} (hs : s.status = .running) (hp : s.pc.toNat > 0xFFE) :
    step s = .next (s.raise (.outOfBounds s.pc none (max s.pc.toNat 0x1000))) := by
  simp [step, cycle, hs, State.fetch_outside hp]

theorem finish_eq_next {o : Host.Outcome State Fault Refusal} {t : State} (h : finish o = .next t) :
    ∃ u, o = .next u ∧ t = u.endCycle := by
  cases o <;> simp [finish] at h
  exact ⟨_, rfl, h.symm⟩

/-- Everything a step that answers a next state can have done (R104). -/
theorem step_cases {s t : State} (h : step s = .next t) : s.status = .running ∧
    ((s.pc.toNat > 0xFFE ∧ t = s.raise (.outOfBounds s.pc none (max s.pc.toNat 0x1000))) ∨
     ∃ w, s.fetch = .word w ∧
      ((∃ i u, decodeWord w = .ok i ∧ exec i s = .next u ∧ t = u.endCycle) ∨
       (∃ e, decodeWord w = .error e ∧ t = (s.handleUnknown w).endCycle))) := by
  have hs : s.status = .running := by
    cases hst : s.status <;> simp [step, cycle, hst] at h ⊢
  refine ⟨hs, ?_⟩
  by_cases hp : s.pc.toNat > 0xFFE
  · rw [step_of_outside hs hp] at h
    exact .inl ⟨hp, (Host.Outcome.next.inj h).symm⟩
  · have hw := State.fetch_inside (s := s) (by omega)
    refine .inr ⟨_, hw, ?_⟩
    cases hd : decodeWord (wordOfBytes (s.readByte s.pc.toNat) (s.readByte (s.pc.toNat + 1))) with
    | ok i =>
      rw [step_of_decoded hs hw hd] at h
      obtain ⟨u, hu, ht⟩ := finish_eq_next h
      exact .inl ⟨i, u, rfl, hu, ht⟩
    | error e =>
      rw [step_of_unknown hs hw hd] at h
      exact .inr ⟨e, rfl, (Host.Outcome.next.inj h).symm⟩

/-! ### The end of a cycle -/

theorem State.endCycle_running {s : State} (h : s.status = .running) : s.endCycle = s.sampleInputs := if_pos h

theorem State.endCycle_stopped {s : State} (h : s.status ≠ .running) : s.endCycle = s := if_neg h

/-- Steps (c) to (e): without a tick. -/
theorem State.sampleInputs_no_tick {s : State} (h : s.cycleInput.ticks = 0) :
    s.sampleInputs = s.takeInput.decay s.cycleInput.ticks := by
  simp [State.sampleInputs, h]

/-- Steps (c) to (e): with at least one tick. -/
theorem State.sampleInputs_tick {s : State} (h : 1 ≤ s.cycleInput.ticks) :
    s.sampleInputs = (s.takeInput.decay s.cycleInput.ticks).sync s.cycleInput := if_pos h

/-- Everything steps (c) to (e) leave or write (R104, R109, R110, R282, R283). -/
theorem State.sampleInputs_spec (s : State) :
    s.sampleInputs = { s with
      dt := satSub s.dt s.cycleInput.ticks, st := satSub s.st s.cycleInput.ticks,
      inputs := s.inputs.tail, inputNo := s.inputNo + 1,
      fbOut := if 1 ≤ s.cycleInput.ticks then s.fb else s.fbOut,
      key := if 1 ≤ s.cycleInput.ticks then s.cycleInput.keysIn else s.key,
      events := if 1 ≤ s.cycleInput.ticks then s.events ++ [.sync] else s.events,
      status := if 1 ≤ s.cycleInput.ticks ∧ s.cycleInput.quitIn = true then .halted .quit else s.status } := by
  by_cases h : 1 ≤ s.cycleInput.ticks
  · rw [State.sampleInputs_tick h]
    cases hq : s.cycleInput.quitIn <;>
      simp [State.sync, State.emit, State.setStatus, State.decay, State.takeInput, h, hq]
  · have h0 : s.cycleInput.ticks = 0 := by omega
    rw [State.sampleInputs_no_tick h0]
    simp [State.decay, State.takeInput, h0]

theorem satSub_toNat (a : Byte) (n : Nat) : (satSub a n).toNat = a.toNat - n := by
  simp only [satSub, BitVec.toNat_ofNat]; omega

/-- The inputs of a cycle depend on the input fields alone. -/
theorem State.cycleInput_congr {s t : State} (h1 : t.inputs = s.inputs) (h2 : t.inputNo = s.inputNo) :
    t.cycleInput = s.cycleInput := by
  simp [State.cycleInput, h1, h2]

end Sys2Proof.Machine
end

