-- ==== Sys2Proof/Laws/PerInstr.lean ====
section
/-! SUPPORT. Facts stated per constructor of Instr. `OwnRow`: an instruction's word lies in its own row of the
opcode map (spec/30_encoding.md R80). -/

namespace Sys2Proof.Laws.OwnRow

def Statement (i : Instr) : Prop := i.rowHolds (encode i) = true

theorem halt : Statement (.halt) := by
  unfold Statement; decide
theorem cls : Statement (.cls) := by
  unfold Statement; decide
theorem ret : Statement (.ret) := by
  unfold Statement; decide
theorem jp (nnn : Addr12) : Statement (.jp nnn) := by
  rw [Statement, Instr.rowHolds_iff]; simp only [Instr.mask, Instr.code, encode, and_F000, wordFNNN_toNat]
  simp; omega
theorem call (nnn : Addr12) : Statement (.call nnn) := by
  rw [Statement, Instr.rowHolds_iff]; simp only [Instr.mask, Instr.code, encode, and_F000, wordFNNN_toNat]
  simp; omega
theorem seImm (x : Reg) (kk : Byte) : Statement (.seImm x kk) := by
  rw [Statement, Instr.rowHolds_iff]; simp only [Instr.mask, Instr.code, encode, and_F000, wordFXKK_toNat]
  simp; omega
theorem sneImm (x : Reg) (kk : Byte) : Statement (.sneImm x kk) := by
  rw [Statement, Instr.rowHolds_iff]; simp only [Instr.mask, Instr.code, encode, and_F000, wordFXKK_toNat]
  simp; omega
theorem seReg (x y : Reg) : Statement (.seReg x y) := by
  rw [Statement, Instr.rowHolds_iff]; simp only [Instr.mask, Instr.code, encode, and_F000, wordFXYN_toNat]
  simp; omega
theorem ldImm (x : Reg) (kk : Byte) : Statement (.ldImm x kk) := by
  rw [Statement, Instr.rowHolds_iff]; simp only [Instr.mask, Instr.code, encode, and_F000, wordFXKK_toNat]
  simp; omega
theorem addImm (x : Reg) (kk : Byte) : Statement (.addImm x kk) := by
  rw [Statement, Instr.rowHolds_iff]; simp only [Instr.mask, Instr.code, encode, and_F000, wordFXKK_toNat]
  simp; omega
theorem ldReg (x y : Reg) : Statement (.ldReg x y) := by
  rw [Statement, Instr.rowHolds_iff]; simp only [Instr.mask, Instr.code, encode, and_F00F, wordFXYN_toNat]
  simp; omega
theorem orReg (x y : Reg) : Statement (.orReg x y) := by
  rw [Statement, Instr.rowHolds_iff]; simp only [Instr.mask, Instr.code, encode, and_F00F, wordFXYN_toNat]
  simp; omega
theorem andReg (x y : Reg) : Statement (.andReg x y) := by
  rw [Statement, Instr.rowHolds_iff]; simp only [Instr.mask, Instr.code, encode, and_F00F, wordFXYN_toNat]
  simp; omega
theorem xorReg (x y : Reg) : Statement (.xorReg x y) := by
  rw [Statement, Instr.rowHolds_iff]; simp only [Instr.mask, Instr.code, encode, and_F00F, wordFXYN_toNat]
  simp; omega
theorem addReg (x y : Reg) : Statement (.addReg x y) := by
  rw [Statement, Instr.rowHolds_iff]; simp only [Instr.mask, Instr.code, encode, and_F00F, wordFXYN_toNat]
  simp; omega
theorem subReg (x y : Reg) : Statement (.subReg x y) := by
  rw [Statement, Instr.rowHolds_iff]; simp only [Instr.mask, Instr.code, encode, and_F00F, wordFXYN_toNat]
  simp; omega
theorem shr (x y : Reg) : Statement (.shr x y) := by
  rw [Statement, Instr.rowHolds_iff]; simp only [Instr.mask, Instr.code, encode, and_F00F, wordFXYN_toNat]
  simp; omega
theorem subn (x y : Reg) : Statement (.subn x y) := by
  rw [Statement, Instr.rowHolds_iff]; simp only [Instr.mask, Instr.code, encode, and_F00F, wordFXYN_toNat]
  simp; omega
theorem shl (x y : Reg) : Statement (.shl x y) := by
  rw [Statement, Instr.rowHolds_iff]; simp only [Instr.mask, Instr.code, encode, and_F00F, wordFXYN_toNat]
  simp; omega
theorem sneReg (x y : Reg) : Statement (.sneReg x y) := by
  rw [Statement, Instr.rowHolds_iff]; simp only [Instr.mask, Instr.code, encode, and_F000, wordFXYN_toNat]
  simp; omega
theorem ldI (nnn : Addr12) : Statement (.ldI nnn) := by
  rw [Statement, Instr.rowHolds_iff]; simp only [Instr.mask, Instr.code, encode, and_F000, wordFNNN_toNat]
  simp; omega
theorem jpV0 (nnn : Addr12) : Statement (.jpV0 nnn) := by
  rw [Statement, Instr.rowHolds_iff]; simp only [Instr.mask, Instr.code, encode, and_F000, wordFNNN_toNat]
  simp; omega
theorem rnd (x : Reg) (kk : Byte) : Statement (.rnd x kk) := by
  rw [Statement, Instr.rowHolds_iff]; simp only [Instr.mask, Instr.code, encode, and_F000, wordFXKK_toNat]
  simp; omega
theorem drw (x y : Reg) (n : Fin 16) : Statement (.drw x y n) := by
  rw [Statement, Instr.rowHolds_iff]; simp only [Instr.mask, Instr.code, encode, and_F000, wordFXYN_toNat]
  simp; omega
theorem skp (x : Reg) : Statement (.skp x) := by
  rw [Statement, Instr.rowHolds_iff]; simp only [Instr.mask, Instr.code, encode, and_F0FF, wordFXKK_toNat]
  simp; omega
theorem sknp (x : Reg) : Statement (.sknp x) := by
  rw [Statement, Instr.rowHolds_iff]; simp only [Instr.mask, Instr.code, encode, and_F0FF, wordFXKK_toNat]
  simp; omega
theorem ldVxDT (x : Reg) : Statement (.ldVxDT x) := by
  rw [Statement, Instr.rowHolds_iff]; simp only [Instr.mask, Instr.code, encode, and_F0FF, wordFXKK_toNat]
  simp; omega
theorem ldVxK (x : Reg) : Statement (.ldVxK x) := by
  rw [Statement, Instr.rowHolds_iff]; simp only [Instr.mask, Instr.code, encode, and_F0FF, wordFXKK_toNat]
  simp; omega
theorem ldDTVx (x : Reg) : Statement (.ldDTVx x) := by
  rw [Statement, Instr.rowHolds_iff]; simp only [Instr.mask, Instr.code, encode, and_F0FF, wordFXKK_toNat]
  simp; omega
theorem ldSTVx (x : Reg) : Statement (.ldSTVx x) := by
  rw [Statement, Instr.rowHolds_iff]; simp only [Instr.mask, Instr.code, encode, and_F0FF, wordFXKK_toNat]
  simp; omega
theorem addI (x : Reg) : Statement (.addI x) := by
  rw [Statement, Instr.rowHolds_iff]; simp only [Instr.mask, Instr.code, encode, and_F0FF, wordFXKK_toNat]
  simp; omega
theorem ldF (x : Reg) : Statement (.ldF x) := by
  rw [Statement, Instr.rowHolds_iff]; simp only [Instr.mask, Instr.code, encode, and_F0FF, wordFXKK_toNat]
  simp; omega
theorem ldB (x : Reg) : Statement (.ldB x) := by
  rw [Statement, Instr.rowHolds_iff]; simp only [Instr.mask, Instr.code, encode, and_F0FF, wordFXKK_toNat]
  simp; omega
theorem stRegs (x : Reg) : Statement (.stRegs x) := by
  rw [Statement, Instr.rowHolds_iff]; simp only [Instr.mask, Instr.code, encode, and_F0FF, wordFXKK_toNat]
  simp; omega
theorem ldRegs (x : Reg) : Statement (.ldRegs x) := by
  rw [Statement, Instr.rowHolds_iff]; simp only [Instr.mask, Instr.code, encode, and_F0FF, wordFXKK_toNat]
  simp; omega

end Sys2Proof.Laws.OwnRow
end

