-- ==== Sys2Proof/Laws/Sprite.lean ====
section
/-! SUPPORT. Drawing a sprite, said once: which pixels it inverts and when it collides (spec/44_display.md R230,
R232 to R234). -/

namespace Sys2Proof.Machine

/-- The pixels of one sprite row at distinct wrapped columns, drawn one after the other. -/
theorem drawPixels_spec (r c : Nat) (bit : Nat → Bool) (ks : List Nat)
    (hks : ks.Pairwise fun a b => (c + a) % 64 ≠ (c + b) % 64) (p : Canvas) :
    (∀ r' c', (ks.foldl (fun q k => drawPixel q r (c + k) (bit k)) p).fb.pixel r' c' =
      (p.fb.pixel r' c' ^^ (decide (r' % 32 = r % 32) && ks.any fun k => bit k && decide (c' % 64 = (c + k) % 64)))) ∧
    (ks.foldl (fun q k => drawPixel q r (c + k) (bit k)) p).coll =
      (p.coll || ks.any fun k => bit k && p.fb.pixel r (c + k)) := by
  induction ks generalizing p with
  | nil => simp
  | cons a ks ih =>
    obtain ⟨ha, hks⟩ := List.pairwise_cons.mp hks
    obtain ⟨ihp, ihc⟩ := ih hks (drawPixel p r (c + a) (bit a))
    obtain ⟨hp, hc⟩ := drawPixel_spec p r (c + a) (bit a)
    constructor
    · intro r' c'
      rw [List.foldl_cons, ihp, hp, List.any_cons]
      by_cases hcol : c' % 64 = (c + a) % 64
      · have : (ks.any fun k => bit k && decide (c' % 64 = (c + k) % 64)) = false := by
          simp only [List.any_eq_false, Bool.and_eq_true, decide_eq_true_eq]
          exact fun k hk h => ha k hk (hcol ▸ h.2)
        rw [this, decide_eq_true hcol]
        cases bit a <;> simp
      · simp [hcol]
    · rw [List.foldl_cons, ihc, hc, List.any_cons, Bool.or_assoc]
      congr 2
      rw [Bool.eq_iff_iff, List.any_eq_true, List.any_eq_true]
      refine exists_congr fun k => and_congr_right fun hk => ?_
      rw [hp]
      simp [Ne.symm (ha k hk)]

/-- Pixel (r', c') lies under a 1 bit of the sprite row `b` drawn at row `r` and column `c`. -/
def rowCovers (r c : Nat) (b : Byte) (r' c' : Nat) : Prop :=
  r' % 32 = r % 32 ∧ ∃ j, j < 8 ∧ b.getLsbD (7 - j) = true ∧ c' % 64 = (c + j) % 64

/-- Pixel (r', c') lies under a 1 bit of the sprite `bs` drawn downwards from row `r` at column `c`. -/
def rowsCover (r c : Nat) (bs : List Byte) (r' c' : Nat) : Prop :=
  ∃ k, k < bs.length ∧ rowCovers (r + k) c (bs.getD k 0) r' c'

/-- One row inverts exactly the pixels it covers, and collides where one of them was on. -/
theorem drawRow_spec (p : Canvas) (r c : Nat) (b : Byte) :
    (∀ r' c', (drawRow p r c b).fb.pixel r' c' ≠ p.fb.pixel r' c' ↔ rowCovers r c b r' c') ∧
    ((drawRow p r c b).coll = true ↔
      p.coll = true ∨ ∃ r' c', r' < 32 ∧ c' < 64 ∧ rowCovers r c b r' c' ∧ p.fb.pixel r' c' = true) := by
  have hks : (List.range 8).Pairwise fun a b => (c + a) % 64 ≠ (c + b) % 64 := by
    refine List.Pairwise.imp_of_mem (R := fun a b => a < b) ?_ List.pairwise_lt_range
    intro a b _ hb hab
    have : b < 8 := List.mem_range.mp hb
    omega
  obtain ⟨hp, hc⟩ := drawPixels_spec r c (fun k => b.getLsbD (7 - k)) (List.range 8) hks p
  constructor
  · intro r' c'
    have flips : ∀ x y : Bool, (x ^^ y) ≠ x ↔ y = true := by decide
    rw [drawRow, hp, flips]
    simp [rowCovers, List.any_eq_true]
  · rw [drawRow, hc]
    simp only [Bool.or_eq_true, List.any_eq_true, List.mem_range, Bool.and_eq_true]
    refine or_congr Iff.rfl ⟨?_, ?_⟩
    · rintro ⟨j, hj, hb, hon⟩
      refine ⟨r % 32, (c + j) % 64, Nat.mod_lt _ (by decide), Nat.mod_lt _ (by decide), ⟨by simp, j, hj, hb, by simp⟩, ?_⟩
      simpa [Framebuffer.pixel] using hon
    · rintro ⟨r', c', hr, hc', ⟨hrr, j, hj, hb, hcc⟩, hon⟩
      refine ⟨j, hj, hb, ?_⟩
      simpa [Framebuffer.pixel, hrr, hcc] using hon

theorem rowsCover_cons (r c : Nat) (b : Byte) (bs : List Byte) (r' c' : Nat) :
    rowsCover r c (b :: bs) r' c' ↔ rowCovers r c b r' c' ∨ rowsCover (r + 1) c bs r' c' := by
  constructor
  · rintro ⟨k, hk, h⟩
    cases k with
    | zero => exact .inl (by simpa using h)
    | succ k => exact .inr ⟨k, by simpa using hk, by simpa [Nat.add_assoc, Nat.add_comm 1] using h⟩
  · rintro (h | ⟨k, hk, h⟩)
    · exact ⟨0, by simp, by simpa using h⟩
    · exact ⟨k + 1, by simpa using hk, by simpa [Nat.add_assoc, Nat.add_comm 1] using h⟩

/-- A sprite of at most 32 rows inverts exactly the pixels it covers, and collides where one of them was on. -/
theorem drawRows_spec (bs : List Byte) (p : Canvas) (r c : Nat) (hbs : bs.length ≤ 32) :
    (∀ r' c', (drawRows p r c bs).fb.pixel r' c' ≠ p.fb.pixel r' c' ↔ rowsCover r c bs r' c') ∧
    ((drawRows p r c bs).coll = true ↔
      p.coll = true ∨ ∃ r' c', r' < 32 ∧ c' < 64 ∧ rowsCover r c bs r' c' ∧ p.fb.pixel r' c' = true) := by
  induction bs generalizing p r with
  | nil => simp [drawRows, rowsCover]
  | cons b bs ih =>
    simp only [List.length_cons] at hbs
    obtain ⟨ihp, ihc⟩ := ih (drawRow p r c b) (r + 1) (by omega)
    obtain ⟨hp, hc⟩ := drawRow_spec p r c b
    have apart : ∀ r' c', rowCovers r c b r' c' → ¬ rowsCover (r + 1) c bs r' c' := by
      rintro r' c' ⟨h1, -⟩ ⟨k, hk, h2, -⟩
      omega
    constructor
    · intro r' c'
      rw [rowsCover_cons, drawRows]
      have h1 := hp r' c'
      have h2 := ihp r' c'
      by_cases hrow : rowCovers r c b r' c'
      · have e1 := h1.mpr hrow
        have e2 := Decidable.not_not.mp (mt h2.mp (apart r' c' hrow))
        simp [hrow, e2, e1]
      · have e1 := Decidable.not_not.mp (mt h1.mp hrow)
        rw [← e1, h2]
        simp [hrow]
    · rw [drawRows, ihc, hc, or_assoc]
      refine or_congr Iff.rfl ?_
      constructor
      · rintro (⟨r', c', hr, hcc, h, hon⟩ | ⟨r', c', hr, hcc, h, hon⟩)
        · exact ⟨r', c', hr, hcc, (rowsCover_cons ..).mpr (.inl h), hon⟩
        · refine ⟨r', c', hr, hcc, (rowsCover_cons ..).mpr (.inr h), ?_⟩
          have := Decidable.not_not.mp (mt (hp r' c').mp fun hrow => apart r' c' hrow h)
          rw [← this]; exact hon
      · rintro ⟨r', c', hr, hcc, h, hon⟩
        rcases (rowsCover_cons ..).mp h with h | h
        · exact .inl ⟨r', c', hr, hcc, h, hon⟩
        · refine .inr ⟨r', c', hr, hcc, h, ?_⟩
          have := Decidable.not_not.mp (mt (hp r' c').mp fun hrow => apart r' c' hrow h)
          rw [this]; exact hon

/-- Drawing a sprite of at most 32 rows (R232, R234). -/
theorem drawSprite_spec (fb : Framebuffer) (r c : Nat) (bs : List Byte) (hbs : bs.length ≤ 32) :
    (∀ r' c', (drawSprite fb r c bs).fb.pixel r' c' ≠ fb.pixel r' c' ↔ rowsCover r c bs r' c') ∧
    ((drawSprite fb r c bs).coll = true ↔ ∃ r' c', r' < 32 ∧ c' < 64 ∧ rowsCover r c bs r' c' ∧ fb.pixel r' c' = true) := by
  simpa [drawSprite] using drawRows_spec bs { fb := fb, coll := false } r c hbs

end Sys2Proof.Machine
end

