-- ==== Sys2Proof/Tests/Slice0.lean ====
section
/-! SUPPORT. Tests. Words are written out from the encodings of spec/30_encoding.md R80; expected results are the
vectors of spec/95_test_vectors.md, named in each docstring. The last part shows, for every statement with
hypotheses, concrete values that meet them. -/

open Sys2Proof Sys2Proof.Machine

namespace Sys2Proof.Tests

set_option Elab.async false

/-! ### Decoding: one word of every constructor, bits from R80 -/

theorem test_decode_family0 :
    decodeWord 0b0000000000000000#16 = .ok .halt ∧ decodeWord 0b0000000011100000#16 = .ok .cls ∧
    decodeWord 0b0000000011101110#16 = .ok .ret := by decide

theorem test_decode_addresses :
    decodeWord 0b0001000000000000#16 = .ok (.jp 0x000) ∧ decodeWord 0b0010111111111111#16 = .ok (.call 0xFFF) ∧
    decodeWord 0b1010001100000001#16 = .ok (.ldI 0x301) ∧ decodeWord 0b1011100000000010#16 = .ok (.jpV0 0x802) := by decide

theorem test_decode_immediates :
    decodeWord 0b0011101000000101#16 = .ok (.seImm 0xA 0x05) ∧ decodeWord 0b0100111100000001#16 = .ok (.sneImm 0xF 0x01) ∧
    decodeWord 0b0110101000000010#16 = .ok (.ldImm 0xA 0x02) ∧ decodeWord 0b0111000000000001#16 = .ok (.addImm 0x0 0x01) ∧
    decodeWord 0b1100001100001111#16 = .ok (.rnd 0x3 0x0F) := by decide

/-- Vectors D6 and D7: families 5 and 9 ignore the low nibble. -/
theorem test_decode_register_skips :
    decodeWord 0b0101000100100001#16 = .ok (.seReg 1 2) ∧ decodeWord 0b1001000100101111#16 = .ok (.sneReg 1 2) := by decide

theorem test_decode_family8 :
    decodeWord 0b1000000100100000#16 = .ok (.ldReg 1 2) ∧ decodeWord 0b1000000100100001#16 = .ok (.orReg 1 2) ∧
    decodeWord 0b1000000100100010#16 = .ok (.andReg 1 2) ∧ decodeWord 0b1000000100100011#16 = .ok (.xorReg 1 2) ∧
    decodeWord 0b1000000100100100#16 = .ok (.addReg 1 2) ∧ decodeWord 0b1000000100100101#16 = .ok (.subReg 1 2) ∧
    decodeWord 0b1000000100100110#16 = .ok (.shr 1 2) ∧ decodeWord 0b1000000100100111#16 = .ok (.subn 1 2) ∧
    decodeWord 0b1000000100101110#16 = .ok (.shl 1 2) := by decide

theorem test_decode_families_d_e :
    decodeWord 0b1101000100100101#16 = .ok (.drw 1 2 5) ∧ decodeWord 0b1110000110011110#16 = .ok (.skp 1) ∧
    decodeWord 0b1110000110100001#16 = .ok (.sknp 1) := by decide

theorem test_decode_familyF :
    decodeWord 0b1111000100000111#16 = .ok (.ldVxDT 1) ∧ decodeWord 0b1111000100001010#16 = .ok (.ldVxK 1) ∧
    decodeWord 0b1111000100010101#16 = .ok (.ldDTVx 1) ∧ decodeWord 0b1111000100011000#16 = .ok (.ldSTVx 1) ∧
    decodeWord 0b1111000100011110#16 = .ok (.addI 1) ∧ decodeWord 0b1111000100101001#16 = .ok (.ldF 1) ∧
    decodeWord 0b1111000100110011#16 = .ok (.ldB 1) ∧ decodeWord 0b1111000101010101#16 = .ok (.stRegs 1) ∧
    decodeWord 0b1111000101100101#16 = .ok (.ldRegs 1) := by decide

/-- Vectors D4, D9, D12, D14, D16: the unknown words, each rejected by the name of its family. -/
theorem test_decode_rejects_by_name :
    [0x0123#16, 0x00E1, 0x00FF, 0x0FFF, 0x00FE, 0x00C5].all (fun w => decodeWord w == .error (.unknownFamily0 w)) = true ∧
    [0x8128#16, 0x8129, 0x812A, 0x812B, 0x812C, 0x812D, 0x812F].all (fun w => decodeWord w == .error (.unknownFamily8 w)) = true ∧
    [0xE100#16, 0xE19F].all (fun w => decodeWord w == .error (.unknownFamilyE w)) = true ∧
    [0xF000#16, 0xF130, 0xF175, 0xF1FF].all (fun w => decodeWord w == .error (.unknownFamilyF w)) = true := by decide

/-- R83: one byte is no instruction; R54: the first byte is the high one. -/
theorem test_decode_bytes :
    decodeBytes [0x60] = .error .truncated ∧ decodeBytes [0x60, 0x05, 0x12] = .ok (.ldImm 0 5, [0x12]) := by decide

/-! ### WellFormed: an ill-formed value for each check -/

theorem test_wellformed_refuses_operands :
    operandsFit [(4, 16)] = false ∧ operandsFit [(4, 1), (8, 256)] = false ∧ operandsFit [(12, 4096)] = false ∧
    operandsFit [(4, 15), (8, 255), (12, 4095)] = true := by decide

/-- The largest operands of R72 pass: every term of `Instr` fits. -/
theorem test_wellformed_accepts :
    (Instr.drw 15 15 15).wellFormed = true ∧ (Instr.rnd 15 255).wellFormed = true ∧ (Instr.jp 0xFFF).wellFormed = true := by decide

/-- Vectors I2 and I3: 3584 bytes are accepted, 3585 are not. -/
theorem test_rom_length :
    romFits (List.replicate 3584 0xAB) = true ∧ romFits (List.replicate 3585 0xAB) = false := by
  simp only [romFits, romMax, List.length_replicate]; decide

/-! ### One step of every instruction -/

/-- After initialisation, with no tick in the first cycle. -/
def quiet : State := { State.reset with inputs := [{ ticks := 0, keysIn := 0, quitIn := false }] }

/-- `quiet` with some registers set. -/
def regs (rs : List (Reg × Byte)) : State := rs.foldl (fun s r => s.setV r.1 r.2) quiet

/-- The word placed at pc and run gives a next state with this property. -/
def runs (s : State) (w : Word) (p : State → Bool) : Bool :=
  match step (s.placeWord w) with
  | .next t => p t
  | _ => false

/-- Vector K20. -/
theorem test_halt : runs { quiet with dt := 5 } 0x0000
    (fun t => t.status == .halted .sentinel && t.dt == 5 && t.pc == 0x200) = true := by decide +kernel

/-- Vector G1 (E7). -/
theorem test_cls : runs { regs [(0xF, 5)] with fb := Vector.replicate 32 0xFFFFFFFFFFFFFFFF } 0x00E0
    (fun t => t.fb == Framebuffer.blank && t.getV 0xF == 5 && t.pc == 0x202) = true := by decide +kernel

/-- Vector C2. -/
theorem test_ret : runs { quiet with pc := 0x212, sp := 1, stack := quiet.stack.set 0 0x206 } 0x00EE
    (fun t => t.pc == 0x206 && t.sp == 0 && t.stack[0] == 0x206) = true := by decide +kernel

/-- Vector C3. -/
theorem test_ret_underflow : runs { quiet with pc := 0x300, dt := 7 } 0x00EE
    (fun t => t.status == .faulted (.stackUnderflow 0x300 0x00EE) && t.pc == 0x300 && t.dt == 7) = true := by decide +kernel

/-- Vector C6. -/
theorem test_jp : runs { quiet with pc := 0x208 } 0x1204 (fun t => t.pc == 0x204) = true := by decide +kernel

/-- Vector C5. -/
theorem test_call : runs { quiet with pc := 0xFFE } 0x2300
    (fun t => t.pc == 0x300 && t.sp == 1 && t.stack[0] == 0x1000) = true := by decide +kernel

/-- Vector C4. -/
theorem test_call_overflow : runs { quiet with pc := 0x300, sp := 16 } 0x2400
    (fun t => t.status == .faulted (.stackOverflow 0x300 0x2400) && t.sp == 16 && t.pc == 0x300) = true := by decide +kernel

/-- Vectors C10 and C11. -/
theorem test_se_immediate :
    runs { regs [(0, 5)] with pc := 0x206 } 0x3005 (fun t => t.pc == 0x20A) = true ∧
    runs { regs [(0, 4)] with pc := 0x206 } 0x3005 (fun t => t.pc == 0x208) = true := by decide +kernel

/-- Vectors C13 and C14. -/
theorem test_sne_immediate :
    runs { regs [(0xF, 1)] with pc := 0x20E } 0x4F01 (fun t => t.pc == 0x210) = true ∧
    runs { regs [(0xF, 0)] with pc := 0x20E } 0x4F01 (fun t => t.pc == 0x212) = true := by decide +kernel

/-- Vector C16. -/
theorem test_se_registers : runs { regs [(1, 7), (2, 7)] with pc := 0x300 } 0x512F (fun t => t.pc == 0x304) = true := by
  decide +kernel

/-- Vector C18. -/
theorem test_sne_registers : runs { regs [(1, 7), (2, 8)] with pc := 0x300 } 0x9120 (fun t => t.pc == 0x304) = true := by
  decide +kernel

/-- Vector C21. -/
theorem test_jp_v0 : runs (regs [(0, 0xFF)]) 0xBFFF (fun t => t.pc == 0x10FE) = true := by decide +kernel

/-- Vector A2. -/
theorem test_ld_immediate : runs quiet 0x6FAB (fun t => t.getV 0xF == 0xAB && t.pc == 0x202) = true := by decide +kernel

/-- Vector A3. -/
theorem test_add_immediate : runs (regs [(0, 0xFF), (0xF, 5)]) 0x7001 (fun t => t.getV 0 == 0 && t.getV 0xF == 5) = true := by
  decide +kernel

/-- Vector A5. -/
theorem test_ld_register : runs (regs [(1, 0x3C)]) 0x8010 (fun t => t.getV 0 == 0x3C && t.getV 1 == 0x3C) = true := by
  decide +kernel

/-- Vectors A29 and A30. -/
theorem test_or :
    runs (regs [(0, 0xF0), (1, 0x0F), (0xF, 1)]) 0x8011 (fun t => t.getV 0 == 0xFF && t.getV 0xF == 1) = true ∧
    runs { regs [(0, 0xF0), (1, 0x0F), (0xF, 1)] with config := { Config.default with logicResetsVF := true } } 0x8011
      (fun t => t.getV 0 == 0xFF && t.getV 0xF == 0) = true := by decide +kernel

/-- Vector A31. -/
theorem test_and : runs (regs [(0, 0xF0), (1, 0x3C)]) 0x8012 (fun t => t.getV 0 == 0x30) = true := by decide +kernel

/-- Vector A32. -/
theorem test_xor : runs (regs [(0, 0xFF), (1, 0x0F)]) 0x8013 (fun t => t.getV 0 == 0xF0) = true := by decide +kernel

/-- Vectors A8 and A9. -/
theorem test_add_registers :
    runs (regs [(0, 0x80), (1, 0x7F)]) 0x8014 (fun t => t.getV 0 == 0xFF && t.getV 0xF == 0) = true ∧
    runs (regs [(0xF, 0xF0), (0, 0x20)]) 0x8F04 (fun t => t.getV 0xF == 1) = true := by decide +kernel

/-- Vectors A11 and A13. -/
theorem test_sub :
    runs (regs [(2, 5), (3, 7)]) 0x8235 (fun t => t.getV 2 == 0xFE && t.getV 0xF == 0) = true ∧
    runs (regs [(2, 5), (3, 5)]) 0x8235 (fun t => t.getV 2 == 0 && t.getV 0xF == 1) = true := by decide +kernel

/-- Vectors A20 and A23. -/
theorem test_shr :
    runs (regs [(3, 7)]) 0x8326 (fun t => t.getV 3 == 3 && t.getV 0xF == 1) = true ∧
    runs { regs [(1, 5)] with config := { Config.default with shiftSource := .vy } } 0x8016
      (fun t => t.getV 0 == 2 && t.getV 0xF == 1) = true := by decide +kernel

/-- Vectors A17 and A18. -/
theorem test_subn :
    runs (regs [(0, 5), (1, 7)]) 0x8017 (fun t => t.getV 0 == 2 && t.getV 0xF == 1) = true ∧
    runs (regs [(0, 7), (1, 5)]) 0x8017 (fun t => t.getV 0 == 0xFE && t.getV 0xF == 0) = true := by decide +kernel

/-- Vectors A25 and A28. -/
theorem test_shl :
    runs (regs [(3, 0x81)]) 0x830E (fun t => t.getV 3 == 2 && t.getV 0xF == 1) = true ∧
    runs (regs [(0xF, 0x81)]) 0x8FFE (fun t => t.getV 0xF == 1) = true := by decide +kernel

/-- Vectors A34 and A35: the draw is consumed even with mask 0. -/
theorem test_rnd :
    runs { quiet with rands := [0xA7, 0x11] } 0xC30F (fun t => t.getV 3 == 7 && t.rands == [0x11]) = true ∧
    runs { quiet with rands := [0xA7, 0x11] } 0xC300 (fun t => t.getV 3 == 0 && t.rands == [0x11]) = true := by decide +kernel

/-- Vector A37, and A38 under `fatal`. -/
theorem test_unknown_word :
    runs quiet 0x8018 (fun t => t.events == [.diag 0x200 0x8018] && t.pc == 0x202 && t.v == quiet.v) = true ∧
    runs { quiet with config := { Config.default with unknownOpcode := .fatal } } 0x8018
      (fun t => t.status == .faulted (.unknownOpcode 0x200 0x8018) && t.pc == 0x200) = true := by decide +kernel

/-- Vector M2. -/
theorem test_ld_i : runs quiet 0xAFFF (fun t => t.i == 0x0FFF) = true := by decide +kernel

/-- Vectors M3 and M4. -/
theorem test_add_i :
    runs { regs [(2, 0x10)] with i := 0x0FF8 } 0xF21E (fun t => t.i == 0x1008 && t.getV 0xF == 1) = true ∧
    runs { regs [(2, 0x10), (0xF, 7)] with i := 0x0FF8, config := { Config.default with fx1e := .wrap12 } } 0xF21E
      (fun t => t.i == 0x0008 && t.getV 0xF == 7) = true := by decide +kernel

/-- Vector M10. -/
theorem test_ld_f : runs (regs [(2, 0x1A)]) 0xF229 (fun t => t.i == 0x0032) = true := by decide +kernel

/-- Vectors M12 and M16. -/
theorem test_ld_b :
    runs { regs [(0, 0x9C)] with i := 0x300 } 0xF033 (fun t => t.readBytes 0x300 3 == [1, 5, 6] && t.i == 0x300) = true ∧
    runs { regs [(0, 0x9C)] with i := 0xFFE } 0xF033
      (fun t => t.status == .faulted (.outOfBounds 0x200 (some 0xF033) 0x1000) && t.readBytes 0xFFE 2 == [0, 0]) = true := by
  decide +kernel

/-- Vectors M18 and M22. -/
theorem test_st_regs :
    runs { regs [(0, 1), (1, 2), (2, 3)] with i := 0x300 } 0xF255
      (fun t => t.readBytes 0x300 3 == [1, 2, 3] && t.i == 0x303) = true ∧
    runs { regs [(0, 9)] with i := 0xFF1 } 0xFF55
      (fun t => t.status == .faulted (.outOfBounds 0x200 (some 0xFF55) 0x1000) && t.readByte 0xFF1 == 0) = true := by
  decide +kernel

/-- Vectors M23 and M25. -/
theorem test_ld_regs :
    runs { quiet.writeBytes 0x300 [1, 5, 6] with i := 0x300 } 0xF265
      (fun t => t.getV 0 == 1 && t.getV 1 == 5 && t.getV 2 == 6 && t.getV 3 == 0 && t.i == 0x303) = true ∧
    runs { regs [(0, 3)] with i := 0xFFF } 0xF165
      (fun t => t.status == .faulted (.outOfBounds 0x200 (some 0xF165) 0x1000) && t.getV 0 == 3) = true := by decide +kernel

/-- Vectors G2 and G9. -/
theorem test_drw :
    runs { (regs [(0, 62), (1, 1)]).writeBytes 0x212 [0x81] with i := 0x212 } 0xD011
      (fun t => t.fb == Framebuffer.blank.set 1 0x4000000000000020 && t.getV 0xF == 0 && t.pc == 0x202) = true ∧
    runs { (regs [(0xF, 3)]).writeBytes 0x300 [0x80] with i := 0x300 } 0xDF01
      (fun t => t.fb == Framebuffer.blank.set 0 0x8 && t.getV 0xF == 0) = true := by decide +kernel

/-- Vectors G7 and G10. -/
theorem test_drw_collision_and_no_rows :
    runs { quiet.writeBytes 0x300 [0xC0] with i := 0x300, fb := Framebuffer.blank.set 0 1 } 0xD011
      (fun t => t.fb == Framebuffer.blank.set 0 2 && t.getV 0xF == 1) = true ∧
    runs { regs [(0xF, 1)] with i := 0xFFFF } 0xD010
      (fun t => t.status == .running && t.fb == Framebuffer.blank && t.getV 0xF == 0) = true := by decide +kernel

/-- Vectors K1 and K2. -/
theorem test_skp :
    runs { regs [(1, 5)] with key := 0x20, pc := 0x220 } 0xE19E (fun t => t.pc == 0x224) = true ∧
    runs { regs [(1, 5)] with pc := 0x220 } 0xE19E (fun t => t.pc == 0x222) = true := by decide +kernel

/-- Vectors K3 and K4. -/
theorem test_sknp :
    runs { regs [(1, 0x15)] with pc := 0x220 } 0xE1A1 (fun t => t.pc == 0x224) = true ∧
    runs { regs [(1, 0x15)] with key := 0x20, pc := 0x220 } 0xE1A1 (fun t => t.pc == 0x222) = true := by decide +kernel

/-- Vector K5. -/
theorem test_ld_vx_dt : runs { quiet with dt := 9 } 0xF107 (fun t => t.getV 1 == 9) = true := by decide +kernel

/-- Vector K12. -/
theorem test_ld_vx_k_ends : runs { quiet with pc := 0x240, kwait := true, key := 0x0204 } 0xF30A
    (fun t => t.getV 3 == 2 && !t.kwait && t.pc == 0x242) = true := by decide +kernel

/-- Vectors K10 and K13. -/
theorem test_ld_vx_k_waits :
    runs { quiet with pc := 0x240 } 0xF30A (fun t => t.kwait && t.kprev == 0 && t.pc == 0x240) = true ∧
    runs { quiet with pc := 0x240, kwait := true, kprev := 8, key := 8 } 0xF30A
      (fun t => t.kwait && t.kprev == 8 && t.getV 3 == 0 && t.pc == 0x240) = true := by decide +kernel

/-- Vector K6: DT is written, then one tick decays it. -/
theorem test_ld_dt_vx : runs { regs [(0, 0x0A)] with inputs := [{ ticks := 1, keysIn := 0, quitIn := false }] } 0xF015
    (fun t => t.dt == 9) = true := by decide +kernel

/-- Vector K7. -/
theorem test_ld_st_vx : runs (regs [(4, 0x20)]) 0xF418 (fun t => t.st == 0x20 && t.stOut == 0x20) = true := by decide +kernel

/-- Vector Y3: one tick with quit. -/
theorem test_quit_at_a_sync :
    runs { quiet with dt := 4, inputs := [{ ticks := 1, keysIn := 0x80, quitIn := true }] } 0x6005
      (fun t => t.getV 0 == 5 && t.dt == 3 && t.key == 0x80 && t.status == .halted .quit && t.events == [.sync]) = true ∧
    runs { quiet with inputs := [{ ticks := 0, keysIn := 0x80, quitIn := true }] } 0x6005
      (fun t => t.status == .running && t.key == 0 && t.events == []) = true := by decide +kernel

/-- Vector K18: both timers clamp at 0. -/
theorem test_timers_clamp :
    runs { quiet with dt := 0xFF, st := 3, inputs := [{ ticks := 0x100, keysIn := 0, quitIn := false }] } 0x6005
      (fun t => t.dt == 0 && t.st == 0) = true := by decide +kernel

/-- Vector I4: the font and the zeros above it. -/
theorem test_initial_memory :
    State.reset.readBytes 0 5 = [0xF0, 0x90, 0x90, 0x90, 0xF0] ∧
    State.reset.readBytes 0x4B 5 = [0xF0, 0x80, 0xF0, 0x80, 0x80] ∧ State.reset.readByte 0x50 = 0 := by decide +kernel

/-- A table word placed and read back: the host's two names. -/
theorem test_table_words :
    decodeTableWord 16 0xD125 = some (.drw 1 2 5) ∧ decodeTableWord 16 0x8018 = none ∧
    (State.reset.withFetchWord 16 0xD125).fetch = .word 0xD125 := by decide +kernel

/-! ### Witnesses: values that meet the hypotheses of each statement, at the edges of each clause -/

/-- A word placed at pc. -/
def holding (w : Word) (s : State) : State := s.placeWord w

/-- `quiet` with other parameters. -/
def quietWith (c : Config) : State := { quiet with config := c }

/-- `quiet` whose first cycle has these inputs. -/
def ticking (n : Nat) (quit : Bool) : State := { quiet with inputs := [{ ticks := n, keysIn := 0x80, quitIn := quit }] }

theorem exists_of_runs {s : State} {w : Word} {p : State → Bool} (h : runs s w p = true) :
    ∃ t, step (holding w s) = .next t ∧ p t = true := by
  unfold runs at h
  unfold holding
  split at h
  · exact ⟨_, ‹_›, h⟩
  · exact absurd h (by decide)

/-- A step that ends in a fatal error. -/
theorem faults_of_runs {s : State} {w : Word} {e : FatalError} (h : runs s w (fun t => t.status == .faulted e) = true) :
    ∃ t, step (holding w s) = .next t ∧ t.status = .faulted e := by
  obtain ⟨t, ht, he⟩ := exists_of_runs h
  exact ⟨t, ht, eq_of_beq he⟩

theorem witness_DecodeOfEncodeIsTheInstruction :
    (Instr.drw 15 0 15).wellFormed = true ∧ (Instr.rnd 0 255).wellFormed = true ∧ (Instr.call 0xFFF).wellFormed = true := by
  decide

theorem witness_EncodeOfDecodeIsTheCanonicalWord :
    decodeWord 0x912F = .ok (.sneReg 1 2) ∧ decodeWord 0x0000 = .ok .halt ∧ decodeWord 0xFF65 = .ok (.ldRegs 15) := by decide

theorem witness_DecodeFollowsTheOpcodeMap :
    decodeWord 0x512F = .ok (.seReg 1 2) ∧ (Instr.seReg 3 3).rowHolds 0x512F = true := by decide

theorem witness_FetchAssemblesABigEndianWord :
    ({ quiet with pc := 0xFFE } : State).pc.toNat ≤ 0xFFE ∧ quiet.pc.toNat ≤ 0xFFE := by decide

/-- Both clauses: an instruction after which the engine runs, the last word of memory, and one after which it does not. -/
theorem witness_StepRunsTheDecodedInstruction :
    (∀ s ∈ [holding 0x6005 { quiet with pc := 0xFFE }],
      s.status = .running ∧ s.pc.toNat ≤ 0xFFE ∧
      decodeBytes [s.readByte s.pc.toNat, s.readByte (s.pc.toNat + 1)] = .ok (.ldImm 0 5, []) ∧
      ∃ t, exec (.ldImm 0 5) s = .next t ∧ t.status = .running) ∧
    (∀ s ∈ [quiet], s.status = .running ∧ s.pc.toNat ≤ 0xFFE ∧
      decodeBytes [s.readByte s.pc.toNat, s.readByte (s.pc.toNat + 1)] = .ok (.halt, []) ∧
      ∃ t, exec .halt s = .next t ∧ t.status ≠ .running) := by
  refine ⟨fun s hs => ?_, fun s hs => ?_⟩ <;> rw [List.mem_singleton.mp hs]
  · exact ⟨by decide +kernel, by decide +kernel, by decide +kernel, _, rfl, by decide +kernel⟩
  · exact ⟨by decide +kernel, by decide +kernel, by decide +kernel, _, rfl, by decide +kernel⟩

theorem witness_FetchOutsideMemoryRaises :
    (({ quiet with pc := 0xFFF } : State).status = .running ∧ ({ quiet with pc := 0xFFF } : State).pc.toNat > 0xFFE) ∧
    (({ quiet with pc := 0x1000 } : State).status = .running ∧ ({ quiet with pc := 0x1000 } : State).pc.toNat > 0xFFE) := by
  decide

theorem witness_StepStopsExactlyWhenTheEngineHasStopped :
    quiet.status = .running ∧ (quiet.setStatus (.halted .quit)).status = .halted .quit ∧
    (quiet.raise (.oversizedROM 3585)).status = .faulted (.oversizedROM 3585) := by decide

theorem witness_HaltSentinelStopsTheEngine : quiet.status = .running ∧ quiet.fetch = .word 0 := by decide +kernel

theorem witness_UnknownWordFollowsThePolicy :
    ∀ s ∈ [holding 0x00FF quiet, holding 0x00FF (quietWith { Config.default with unknownOpcode := .fatal })],
      s.status = .running ∧ s.fetch = .word 0x00FF ∧ unknownWord 0x00FF = true ∧
      (s.config.unknownOpcode = .nop ∨ s.config.unknownOpcode = .fatal) := by decide +kernel

theorem witness_FatalStopDiscardsTheCycle :
    ∃ t, step (holding 0x00EE quiet) = .next t ∧ t.status = .faulted (.stackUnderflow 0x200 0x00EE) :=
  faults_of_runs (by decide +kernel)

/-- One state for every disjunct, each just past the edge of what is legal. -/
theorem witness_OnlyTheListedErrorsAreRaised :
    (∃ t, step { quiet with pc := 0xFFF } = .next t ∧ t.status = .faulted (.outOfBounds 0xFFF none 0x1000)) ∧
    (∃ t, step (holding 0x2FFF { quiet with sp := 16 }) = .next t ∧ t.status = .faulted (.stackOverflow 0x200 0x2FFF)) ∧
    (∃ t, step (holding 0x00EE quiet) = .next t ∧ t.status = .faulted (.stackUnderflow 0x200 0x00EE)) ∧
    (∃ t, step (holding 0xD001 { quiet with i := 0x1000 }) = .next t ∧
      t.status = .faulted (.outOfBounds 0x200 (some 0xD001) 0x1000)) ∧
    (∃ t, step (holding 0xF033 { quiet with i := 0xFFE }) = .next t ∧
      t.status = .faulted (.outOfBounds 0x200 (some 0xF033) 0x1000)) ∧
    (∃ t, step (holding 0xF055 { quiet with i := 0x1000 }) = .next t ∧
      t.status = .faulted (.outOfBounds 0x200 (some 0xF055) 0x1000)) ∧
    (∃ t, step (holding 0xFF65 { quiet with i := 0xFF1 }) = .next t ∧
      t.status = .faulted (.outOfBounds 0x200 (some 0xFF65) 0x1000)) ∧
    (∃ t, step (holding 0xFFFF (quietWith { Config.default with unknownOpcode := .fatal })) = .next t ∧
      t.status = .faulted (.unknownOpcode 0x200 0xFFFF)) :=
  ⟨⟨_, step_of_outside rfl (by decide), by decide +kernel⟩, faults_of_runs (by decide +kernel), faults_of_runs (by decide +kernel),
    faults_of_runs (by decide +kernel), faults_of_runs (by decide +kernel), faults_of_runs (by decide +kernel),
    faults_of_runs (by decide +kernel), faults_of_runs (by decide +kernel)⟩

/-- A cycle that executes, and one that handles an unknown word. -/
theorem witness_TimersDecayByTheElapsedTicks :
    (holding 0x6005 { ticking 5 false with dt := 2, st := 0xFF }).completesWith
      (((holding 0x6005 { ticking 5 false with dt := 2, st := 0xFF }).setV 0 5).advance) ∧
    (holding 0x00FF quiet).completesWith ((holding 0x00FF quiet).handleUnknown 0x00FF) :=
  ⟨⟨⟨rfl, 0x6005, by decide +kernel, .inl ⟨.ldImm 0 5, by decide, rfl⟩⟩, rfl⟩,
    ⟨⟨rfl, 0x00FF, by decide +kernel, .inr ⟨⟨.unknownFamily0 0x00FF, by decide⟩, rfl⟩⟩, rfl⟩⟩

/-- No tick; one tick; one tick with quit. -/
theorem witness_SyncHappensExactlyAtATick :
    (∀ p ∈ [(0, true), (1, false), (1, true)],
      (holding 0x6005 (ticking p.1 p.2)).completesWith (((holding 0x6005 (ticking p.1 p.2)).setV 0 5).advance)) ∧
    (holding 0x6005 (ticking 0 true)).cycleInput.ticks = 0 ∧ (holding 0x6005 (ticking 1 false)).cycleInput.ticks ≥ 1 ∧
    (holding 0x6005 (ticking 1 true)).cycleInput.ticks ≥ 1 := by
  refine ⟨fun p hp => ?_, by decide +kernel, by decide +kernel, by decide +kernel⟩
  have : (holding 0x6005 (ticking p.1 p.2)).fetch = .word 0x6005 := by
    simp only [List.mem_cons, List.not_mem_nil, or_false] at hp
    rcases hp with rfl | rfl | rfl <;> decide +kernel
  exact ⟨⟨rfl, 0x6005, this, .inl ⟨.ldImm 0 5, by decide, rfl⟩⟩, rfl⟩

theorem witness_InputsActOnlyAtTheirSamplingPoints :
    (∃ t, exec (.rnd 0 0xFF) { quiet with rands := [7] } = .next t) ∧
    (∃ t, exec (.skp 0) quiet = .next t ∧ ∀ x kk, Instr.skp 0 ≠ .rnd x kk) ∧
    (∃ t, step (holding 0x6005 (ticking 1 true)) = .next t ∧ (t.status == .halted .quit) = true) :=
  ⟨⟨_, rfl⟩, ⟨_, rfl, fun _ _ h => by cases h⟩, exists_of_runs (by decide +kernel)⟩

/-- The longest ROM with its last byte; one byte less with the zero after it; two less with the last fetch; the empty ROM. -/
theorem witness_RomIsPlacedAtTheProgramBase :
    ((List.replicate 3584 0xAB#8).length ≤ 3584 ∧ 3583 < (List.replicate 3584 0xAB#8).length) ∧
    ((List.replicate 3583 0xAB#8).length ≤ 3584 ∧ 0x200 + (List.replicate 3583 0xAB#8).length ≤ 4095 ∧ 4095 < 4096) ∧
    ((List.replicate 3582 0xAB#8).length ≤ 3584 ∧ 0x200 + (List.replicate 3582 0xAB#8).length ≤ (0xFFE#16).toNat ∧
      (0xFFE#16).toNat ≤ 0xFFE) ∧
    (([] : List Byte).length ≤ 3584 ∧ 0x200 + ([] : List Byte).length ≤ (0x200#16).toNat) := by
  simp only [List.length_replicate, List.length_nil]; decide

theorem witness_InitialisationLeavesTheListedValues :
    ([0x60, 0x05] : List Byte).length ≤ 3584 ∧ 79 < 80 ∧ 80 ≤ 80 ∧ 80 < 0x200 ∧ 80 ≤ 0x1FF ∧ 0x1FF < 0x200 := by decide

theorem witness_OversizedRomIsRejected :
    (List.replicate 3585 0xAB#8).length > 3584 ∧ 80 ≤ 4095 ∧ 4095 < 4096 := by
  simp only [List.length_replicate]; decide

/-- A store over the font while memory lists a byte. -/
theorem witness_StepKeepsMemoryCanonical :
    (holding 0xF055 { regs [(0, 0xAA)] with mem := [(0xFFF, 1)] }).memoryCanonical ∧
    ∃ t, step (holding 0xF055 { regs [(0, 0xAA)] with mem := [(0xFFF, 1)] }) = .next t ∧
      (t.readByte 0 == 0xAA && t.readByte 0xFFF == 1) = true :=
  ⟨by unfold State.memoryCanonical; decide +kernel, exists_of_runs (by decide +kernel)⟩

/-- Fifteen live entries at both ends of the range, and the call that pushes the sixteenth from the last word. -/
theorem witness_StepKeepsStackEntriesInRange :
    (holding 0x2300 { quiet with pc := 0xFFE, sp := 15, stack := (Vector.replicate 16 2).set 0 0x1000 }).stackInRange ∧
    ∃ t, step (holding 0x2300 { quiet with pc := 0xFFE, sp := 15, stack := (Vector.replicate 16 2).set 0 0x1000 }) = .next t ∧
      (t.sp == 16 && t.stack[15] == 0x1000) = true :=
  ⟨by unfold State.stackInRange; decide +kernel, exists_of_runs (by decide +kernel)⟩

theorem witness_StepKeepsTheWaitAtItsFX0A :
    (holding 0xF30A { quiet with kwait := true }).waitsAtFX0A ∧ (holding 0xF30A quiet).waitsAtFX0A ∧
    ∃ t, step (holding 0xF30A { quiet with kwait := true }) = .next t ∧ t.kwait = true :=
  ⟨fun _ => ⟨rfl, 0xF30A, 3, by decide +kernel, by decide⟩, fun h => absurd h (by decide +kernel),
    exists_of_runs (by decide +kernel)⟩

/-- Each way a register can change. -/
theorem witness_RegistersAreWrittenOnlyByTheirWriters :
    (∃ t, exec (.addReg 0 1) (regs [(0, 0xFF), (1, 1)]) = .next t ∧
      t.getV 0 ≠ (regs [(0, 0xFF), (1, 1)]).getV 0 ∧ t.getV 0xF ≠ (regs [(0, 0xFF), (1, 1)]).getV 0xF) ∧
    (∃ t, exec (.ldImm 0xF 1) quiet = .next t ∧ t.getV 0xF ≠ quiet.getV 0xF) ∧
    (∃ t, exec (.ldRegs 1) quiet = .next t ∧ t.getV 1 ≠ quiet.getV 1 ∧ t.i ≠ quiet.i) :=
  ⟨⟨_, rfl, by decide +kernel, by decide +kernel⟩, ⟨_, rfl, by decide +kernel⟩, ⟨_, rfl, by decide +kernel, by decide +kernel⟩⟩

/-- Each piece of state, changed by one of its writers. -/
theorem witness_OtherStateIsWrittenOnlyByItsWriters :
    (∃ t, exec (.ldB 0) { regs [(0, 0x9C)] with i := 0x300 } = .next t ∧ t.mem ≠ quiet.mem) ∧
    (∃ t, exec (.drw 0 0 5) quiet = .next t ∧ t.fb ≠ quiet.fb) ∧
    (∃ t, exec (.call 0x300) quiet = .next t ∧ t.sp ≠ quiet.sp ∧ t.stack ≠ quiet.stack) ∧
    (∃ t, exec (.ldDTVx 0) (regs [(0, 1)]) = .next t ∧ t.dt ≠ quiet.dt) ∧
    (∃ t, exec (.ldSTVx 0) (regs [(0, 1)]) = .next t ∧ t.st ≠ quiet.st) ∧
    (∃ t, exec (.ldVxK 0) quiet = .next t ∧ t.kwait ≠ quiet.kwait) ∧
    (∃ t, exec .ret quiet = .next t ∧ t.status ≠ quiet.status) ∧
    (∃ t, exec (.rnd 0 0) { quiet with rands := [7] } = .next t ∧ t.rands ≠ [7]) :=
  ⟨⟨_, rfl, by decide +kernel⟩, ⟨_, rfl, by decide +kernel⟩, ⟨_, rfl, by decide +kernel, by decide +kernel⟩,
    ⟨_, rfl, by decide +kernel⟩, ⟨_, rfl, by decide +kernel⟩, ⟨_, rfl, by decide +kernel⟩,
    ⟨_, rfl, by decide +kernel⟩, ⟨_, rfl, by decide +kernel⟩⟩

theorem witness_SoundTimerAndOutputsAreNeverRead :
    (∃ t, exec (.ldSTVx 1) quiet = .next t) ∧ (∃ t, exec (.ldVxDT 1) quiet = .next t) := ⟨⟨_, rfl⟩, ⟨_, rfl⟩⟩

/-- One live entry that agrees, fifteen stale ones that do not. -/
theorem witness_StaleStackEntriesAreNeverRead :
    (∀ k : Fin 16, k.val < ({ quiet with sp := 1 } : State).sp.val →
      ((Vector.replicate 16 7#16).set 0 0)[k] = ({ quiet with sp := 1 } : State).stack[k]) ∧
    ∃ t, exec .ret { quiet with sp := 1 } = .next t :=
  ⟨by decide +kernel, _, rfl⟩

theorem witness_RetPopsTheReturnAddress :
    ({ quiet with sp := 1 } : State).sp.val = (0 : Fin 16).val + 1 ∧
    ({ quiet with sp := 16 } : State).sp.val = (15 : Fin 16).val + 1 ∧ quiet.sp = 0 := by decide

/-- One entry and sixteen entries, and a fetched 00EE. -/
theorem witness_RetCompletesOnANonEmptyStack :
    (∀ s ∈ [holding 0x00EE { quiet with sp := 1 }, holding 0x00EE { quiet with sp := 16 }],
      0 < s.sp.val ∧ s.status = .running ∧ s.fetch = .word 0x00EE) ∧
    (0 : Fin 16).val + 1 = (1 : Fin 17).val ∧ (15 : Fin 16).val + 1 = (16 : Fin 17).val := by decide +kernel

theorem witness_CallPushesTheReturnAddress :
    quiet.sp.val = (0 : Fin 16).val ∧ ({ quiet with sp := 15 } : State).sp.val = (15 : Fin 16).val ∧
    ({ quiet with sp := 16 } : State).sp = 16 := by decide

theorem witness_ReturnAfterCallComesBack : quiet.sp.val < 16 ∧ ({ quiet with sp := 15 } : State).sp.val < 16 := by decide

theorem witness_ImmediateSkipsTestTheRegister :
    (regs [(15, 0xFF)]).getV 15 = 0xFF ∧ (regs [(15, 0xFF)]).getV 15 ≠ 0xFE := by decide +kernel

theorem witness_RegisterSkipsCompareTwoRegisters :
    (regs [(15, 7)]).getV 15 = (regs [(15, 7)]).getV 15 ∧ (regs [(15, 7)]).getV 15 ≠ (regs [(15, 7)]).getV 0 := by decide +kernel

theorem witness_AddImmediateWrapsWithoutAFlag : (0 : Reg) ≠ 15 := by decide

/-- Each operation, VF as destination and not, both values of the parameter. -/
theorem witness_LogicOperationsActBitwise :
    (∀ p ∈ [(Instr.orReg 15 1, Bool.or), (Instr.andReg 15 1, Bool.and), (Instr.xorReg 15 1, Bool.xor)],
      p = (.orReg 15 1, Bool.or) ∨ p = (.andReg 15 1, Bool.and) ∨ p = (.xorReg 15 1, Bool.xor)) ∧
    ((15 : Reg) ≠ Reg.vf ∨ quiet.config.logicResetsVF = false) ∧ quiet.config.logicResetsVF = false ∧
    (0 : Reg) ≠ Reg.vf ∧ (quietWith { Config.default with logicResetsVF := true }).config.logicResetsVF = true ∧ 7 < 8 := by
  refine ⟨fun p hp => by simpa using hp, ?_⟩
  decide

theorem witness_AddRegistersSetsTheCarry : (0 : Reg) ≠ Reg.vf ∧ (1 : Reg) ≠ 0 ∧ (1 : Reg) ≠ Reg.vf := by decide

theorem witness_SubtractionsSetVFWithoutBorrow :
    ∀ p ∈ [(Instr.subReg 2 3, (5 : Byte), (7 : Byte)), (Instr.subn 2 3, 7, 5)],
      p = (.subReg 2 3, (regs [(2, 5), (3, 7)]).getV 2, (regs [(2, 5), (3, 7)]).getV 3) ∨
      p = (.subn 2 3, (regs [(2, 5), (3, 7)]).getV 3, (regs [(2, 5), (3, 7)]).getV 2) := by decide +kernel

/-- Both values of `SHIFT_SOURCE`. -/
theorem witness_ShiftsPutTheLostBitInVF :
    ∀ c ∈ [Config.default, { Config.default with shiftSource := .vy }],
      (if c.shiftSource = .vx then 0x81#8 else 0x7E#8) =
        (if ({ regs [(1, 0x81), (2, 0x7E)] with config := c } : State).config.shiftSource = .vx
          then ({ regs [(1, 0x81), (2, 0x7E)] with config := c } : State).getV 1
          else ({ regs [(1, 0x81), (2, 0x7E)] with config := c } : State).getV 2) := by decide +kernel

theorem witness_RandomByteIsMaskedAndConsumed :
    ({ quiet with rands := [0xA7] } : State).rands = [0xA7] ∧ (0x7F#8).getLsbD 7 = false ∧ (1 : Reg) ≠ 0 := by decide +kernel

theorem witness_AddIndexFollowsThePolicy :
    quiet.config.fx1e = .carryVF ∧ (quietWith { Config.default with fx1e := .wrap12 }).config.fx1e = .wrap12 := by decide

theorem witness_BcdStoresThreeDecimalDigits :
    ({ quiet with i := 0xFFD } : State).i.toNat + 2 ≤ 0xFFF ∧ quiet.i.toNat + 2 ≤ 0xFFF ∧
    (0 < ({ quiet with i := 0xFFD } : State).i.toNat ∨ ({ quiet with i := 0xFFD } : State).i.toNat + 2 < 0) ∧
    (3 < quiet.i.toNat ∨ quiet.i.toNat + 2 < 3) := by decide

theorem witness_StoreRegistersWritesV0ToVx :
    ({ quiet with i := 0xFF0 } : State).i.toNat + (15 : Reg).val ≤ 0xFFF ∧ (15 : Reg) ≤ 15 ∧
    quiet.i.toNat + (0 : Reg).val ≤ 0xFFF ∧ (1 < quiet.i.toNat ∨ quiet.i.toNat + (0 : Reg).val < 1) := by decide

theorem witness_LoadRegistersReadsV0ToVx :
    ({ quiet with i := 0xFF0 } : State).i.toNat + (15 : Reg).val ≤ 0xFFF ∧ quiet.i.toNat + (0 : Reg).val ≤ 0xFFF := by decide

/-- Each form, its range one byte past the end, and an address far outside. -/
theorem witness_RangesOutsideMemoryRaiseBeforeAnyWrite :
    (∀ q ∈ [((Instr.ldB 0, 3), 0xFFE#16), ((.stRegs 0, 1), 0x1000#16), ((.ldRegs 0, 1), 0xFFFF#16), ((.drw 0 1 15, 15), 0xFF2#16)],
      (q.1 = (.ldB 0, 3) ∨ q.1 = (.stRegs 0, (0 : Reg).val + 1) ∨ q.1 = (.ldRegs 0, (0 : Reg).val + 1) ∨
        (q.1 = (.drw 0 1 15, (15 : Fin 16).val) ∧ 1 ≤ (15 : Fin 16).val)) ∧
      ({ quiet with i := q.2 } : State).i.toNat + q.1.2 - 1 > 0xFFF) := by decide

theorem witness_LoadAfterStoreRestoresTheRegisters :
    ({ quiet with i := 0xFF0 } : State).i.toNat + (15 : Reg).val ≤ 0xFFF ∧
    ∃ t, exec (.stRegs 15) { quiet with i := 0xFF0 } = .next t := ⟨by decide, _, rfl⟩

/-- FX55 up to the last byte of memory, FX55 over the second byte of the next word only, FX33 over the second byte of its
own word and the next word; the form of each instruction is the statement's. -/
theorem witness_StoreOverTheNextInstructionIsFetched :
    (({ quiet with i := 0xFF0, pc := 0xFFC } : State).i.toNat + ((15 : Reg).val + 1) ≤ 0x1000 ∧
      ({ quiet with i := 0xFF0, pc := 0xFFC } : State).pc.toNat + 3 ≤ 0xFFF) ∧
    (({ quiet with i := 0x203 } : State).i.toNat + ((0 : Reg).val + 1) ≤ 0x1000 ∧
      ({ quiet with i := 0x203 } : State).pc.toNat + 3 ≤ 0xFFF) ∧
    (({ quiet with i := 0x201 } : State).i.toNat + 3 ≤ 0x1000 ∧ ({ quiet with i := 0x201 } : State).pc.toNat + 3 ≤ 0xFFF) := by
  decide

theorem witness_ClearTurnsEveryPixelOff : 31 < 32 ∧ 63 < 64 := by decide

/-- The last legal row; a covered pixel that is on; and no covered pixel on. -/
theorem witness_SpriteInvertsThePixelsItCovers :
    ({ quiet with i := 0xFF1 } : State).i.toNat + (15 : Fin 16).val ≤ 0x1000 ∧ quiet.i.toNat + (5 : Fin 16).val ≤ 0x1000 ∧
    (∃ r c, ({ quiet with fb := Framebuffer.blank.set 0 1 } : State).spriteCovers 0 1 5 r c ∧
      ({ quiet with fb := Framebuffer.blank.set 0 1 } : State).fb.pixel r c = true) ∧
    (∀ r c, quiet.spriteCovers 0 1 5 r c → quiet.fb.pixel r c = false) :=
  ⟨by decide, by decide,
    ⟨0, 0, ⟨0, 0, by decide, by decide, by decide +kernel, by decide +kernel, by decide +kernel⟩, by decide +kernel⟩,
    fun r c _ => by simp [quiet, State.reset, Framebuffer.pixel, Framebuffer.blank]⟩

theorem witness_SpriteOfNoRowsOnlyClearsVF : (0 : Reg) ≠ Reg.vf := by decide

theorem witness_DrawingTwiceRestoresTheFramebuffer :
    (0 : Reg) ≠ Reg.vf ∧ (1 : Reg) ≠ Reg.vf ∧ quiet.i.toNat + (5 : Fin 16).val ≤ 0x1000 ∧
    (∀ r c, quiet.fb.pixel r c = false) ∧ ∃ r c, quiet.spriteCovers 0 1 5 r c :=
  ⟨by decide, by decide, by decide, fun r c => by simp [quiet, State.reset, Framebuffer.pixel, Framebuffer.blank],
    0, 0, ⟨0, 0, by decide, by decide, by decide +kernel, by decide +kernel, by decide +kernel⟩⟩

theorem witness_KeySkipsTestTheLowNibbleKey :
    (15 : Fin 16).val = ((regs [(1, 0x1F)]).getV 1).toNat % 16 ∧ (0x8000#16).getLsbD (15 : Fin 16).val = true ∧
    (0x7FFF#16).getLsbD (15 : Fin 16).val = false := by decide +kernel

/-- Each clause: the mode `nop`; the first execution; a held key; and the lowest of two new keys. -/
theorem witness_WaitForKeyEndsOnAKeyDownTransition :
    (quietWith { Config.default with fx0a := .nop }).config.fx0a = .nop ∧
    (quiet.config.fx0a = .block ∧ quiet.kwait = false) ∧
    (∀ s ∈ [({ quiet with kwait := true, key := 8, kprev := 8 } : State)], s.config.fx0a = .block ∧ s.kwait = true ∧
      ∀ k : Fin 16, ¬ (s.key.getLsbD k = true ∧ s.kprev.getLsbD k = false)) ∧
    (∀ s ∈ [({ quiet with kwait := true, key := 0x8200, kprev := 1 } : State)], s.config.fx0a = .block ∧ s.kwait = true ∧
      s.key.getLsbD (9 : Fin 16) = true ∧ s.kprev.getLsbD (9 : Fin 16) = false ∧
      ∀ j : Fin 16, j < 9 → ¬ (s.key.getLsbD j = true ∧ s.kprev.getLsbD j = false)) := by decide +kernel

theorem witness_DelayTimerIsReadAndWritten :
    (∀ s ∈ [holding 0xFF07 (ticking 5 false)], s.status = .running ∧ s.fetch = .word 0xFF07) ∧
    decodeWord 0xFF07 = .ok (.ldVxDT 15) ∧
    (∀ s ∈ [holding 0xF015 (ticking 5 false)], s.status = .running ∧ s.fetch = .word 0xF015) ∧
    decodeWord 0xF015 = .ok (.ldDTVx 0) := by decide +kernel

theorem witness_SoundTimerIsWrittenAndDecays :
    (∃ w, (holding 0xF418 quiet).fetch = .word w ∧ decodeWord w = .ok (.ldSTVx 4)) ∧ (holding 0xF418 quiet).status = .running :=
  ⟨⟨0xF418, by decide +kernel, by decide⟩, rfl⟩

end Sys2Proof.Tests
end

section
/-! The fetch (R71). -/

namespace Sys2Proof.Machine

/-- Settles O6: inside memory the fetch is `wordOfBytes` of the two bytes at pc, whose value is the big-endian one. -/
theorem fetchAssemblesABigEndianWord : Obligations.FetchAssemblesABigEndianWord := by
  intro s hpc
  exact ⟨_, State.fetch_inside hpc, wordOfBytes_toNat _ _⟩

end Sys2Proof.Machine
end

section
/-! Control flow: the jump (R131) and the immediate skips (R133, R134). -/

namespace Sys2Proof.Machine

theorem zextAddr_toNat (nnn : Addr12) : (zextAddr nnn).toNat = nnn.toNat := by
  simp only [zextAddr, BitVec.toNat_setWidth]
  omega

/-- R108 as an equivalence: the fetch faults exactly when pc is above 0xFFE. -/
theorem State.fetch_outside_iff (s : State) : (∃ a, s.fetch = .outside a) ↔ s.pc.toNat > 0xFFE := by
  constructor
  · rintro ⟨a, ha⟩
    by_contra hp
    simp [State.fetch_inside (s := s) (by omega)] at ha
  · exact fun hp => ⟨_, State.fetch_outside hp⟩

/-- Both outcomes of a skip (R105), each with the whole state after it. -/
theorem State.skipIf_true (s : State) : s.skipIf true = { s with pc := s.pc + 4 } := rfl

theorem State.skipIf_false (s : State) : s.skipIf false = { s with pc := s.pc + 2 } := rfl

theorem exec_jp (nnn : Addr12) (s : State) : exec (.jp nnn) s = .next (s.goto (zextAddr nnn)) := rfl

theorem exec_seImm (x : Reg) (kk : Byte) (s : State) : exec (.seImm x kk) s = .next (s.skipIf (s.getV x == kk)) := rfl

theorem exec_sneImm (x : Reg) (kk : Byte) (s : State) : exec (.sneImm x kk) s = .next (s.skipIf (s.getV x != kk)) := rfl

/-- Settles O29: the target is at most 0xFFF, so the one address above 0xFFE, where a fetch faults, is 0xFFF. -/
theorem jumpGoesToItsAddress : Obligations.JumpGoesToItsAddress := by
  intro nnn s
  refine ⟨_, exec_jp nnn s, rfl, zextAddr_toNat nnn, ?_⟩
  rw [State.fetch_outside_iff, State.pc_goto, zextAddr_toNat]
  bv_omega

/-- Settles O32: the register equals the immediate or it does not, and each test is a skip on that answer. -/
theorem immediateSkipsTestTheRegister : Obligations.ImmediateSkipsTestTheRegister := by
  intro x kk s
  rw [exec_seImm, exec_sneImm]
  refine ⟨fun heq => ?_, fun hne => ?_⟩
  · rw [beq_iff_eq.mpr heq, bne_eq_false_iff_eq.mpr heq, State.skipIf_true, State.skipIf_false]
    exact ⟨rfl, rfl⟩
  · rw [beq_eq_false_iff_ne.mpr hne, bne_iff_ne.mpr hne, State.skipIf_true, State.skipIf_false]
    exact ⟨rfl, rfl⟩

end Sys2Proof.Machine
end

section
/-! Register loads, ADD and the subtractions (R161, R170, R174, R175, R177). -/

namespace Sys2Proof.Machine

/-! ### The byte arithmetic of R174, R175 and R177 as numbers -/

theorem addBytes_toNat (a b : Byte) : (addBytes a b).toNat = (a.toNat + b.toNat) % 256 := BitVec.toNat_ofNat _ _

theorem subBytes_toNat (a b : Byte) : ((subBytes a b).toNat : Int) = ((a.toNat : Int) - b.toNat) % 256 := by
  rw [subBytes, BitVec.toNat_ofInt]
  exact Int.toNat_of_nonneg (Int.emod_nonneg _ (by decide))

theorem flagByte_decide (p : Prop) [Decidable p] : flagByte (decide p) = if p then 1 else 0 := by
  simp only [flagByte, decide_eq_true_eq]

/-! ### A write to the registers that goes to the next word, and one with a flag after it (R160) -/

section

variable (s : State) (x : Reg) (b : Byte) (c : Bool)

theorem State.advance_setV_frame : (s.setV x b).advance = { s with v := (s.setV x b).advance.v, pc := s.pc + 2 } := rfl

theorem State.getV_advance_setV (r : Reg) : (s.setV x b).advance.getV r = if r = x then b else s.getV r := by
  rw [State.advance_eq, State.getV_goto, State.getV_setV]

theorem State.resultThenFlag_frame :
    s.resultThenFlag x b c = { s with v := (s.resultThenFlag x b c).v, pc := s.pc + 2 } := rfl

theorem State.getV_resultThenFlag_vf : (s.resultThenFlag x b c).getV Reg.vf = flagByte c := by
  rw [State.resultThenFlag_eq, State.getV_goto, State.getV_setV_self]

theorem State.getV_resultThenFlag_of_ne_vf {r : Reg} (h : r ≠ Reg.vf) :
    (s.resultThenFlag x b c).getV r = if r = x then b else s.getV r := by
  rw [State.resultThenFlag_eq, State.getV_goto, State.getV_setV_of_ne _ h, State.getV_setV]

theorem State.getV_resultThenFlag_self (h : x ≠ Reg.vf) : (s.resultThenFlag x b c).getV x = b := by
  rw [State.getV_resultThenFlag_of_ne_vf s x b c h, if_pos rfl]

theorem State.getV_resultThenFlag_of_ne {r : Reg} (hx : r ≠ x) (hvf : r ≠ Reg.vf) :
    (s.resultThenFlag x b c).getV r = s.getV r := by
  rw [State.getV_resultThenFlag_of_ne_vf s x b c hvf, if_neg hx]

end

/-! ### The instructions -/

theorem exec_ldImm (x : Reg) (kk : Byte) (s : State) : exec (.ldImm x kk) s = .next (s.setV x kk).advance := rfl

theorem exec_ldReg (x y : Reg) (s : State) : exec (.ldReg x y) s = .next (s.setV x (s.getV y)).advance := rfl

theorem exec_addReg (x y : Reg) (s : State) : exec (.addReg x y) s =
    .next (s.resultThenFlag x (addBytes (s.getV x) (s.getV y)) (addCarries (s.getV x) (s.getV y))) := rfl

theorem exec_subReg (x y : Reg) (s : State) : exec (.subReg x y) s =
    .next (s.resultThenFlag x (subBytes (s.getV x) (s.getV y)) (noBorrow (s.getV x) (s.getV y))) := rfl

theorem exec_subn (x y : Reg) (s : State) : exec (.subn x y) s =
    .next (s.resultThenFlag x (subBytes (s.getV y) (s.getV x)) (noBorrow (s.getV y) (s.getV x))) := rfl

/-- Settles O35: both loads are one write to `x`, whatever `x` is, and the next word. -/
theorem registerLoadsWriteTheirDestination : Obligations.RegisterLoadsWriteTheirDestination := by
  intro x y kk s
  exact ⟨⟨_, exec_ldImm x kk s, State.advance_setV_frame s x kk, State.getV_advance_setV s x kk⟩,
    ⟨_, exec_ldReg x y s, State.advance_setV_frame s x (s.getV y), State.getV_advance_setV s x (s.getV y)⟩⟩

/-- Settles O38: the sum goes to `x` and the carry to VF after it, so at `x` = VF the carry is what stays. -/
theorem addRegistersSetsTheCarry : Obligations.AddRegistersSetsTheCarry := by
  intro x y s
  refine ⟨_, exec_addReg x y s, State.resultThenFlag_frame s x _ _, fun hx => ?result, ?carry,
    fun r => State.getV_resultThenFlag_of_ne s x _ _⟩
  case result => rw [State.getV_resultThenFlag_self s x _ _ hx, addBytes_toNat]
  case carry => rw [State.getV_resultThenFlag_vf, addCarries, flagByte_decide]

/-- SUB and SUBN differ only in which register is the minuend: this is their shared effect, for any two bytes. -/
theorem State.difference_and_noBorrow_resultThenFlag (s : State) (x : Reg) (a b : Byte) :
    (x ≠ Reg.vf → (((s.resultThenFlag x (subBytes a b) (noBorrow a b)).getV x).toNat : Int) =
      ((a.toNat : Int) - b.toNat) % 256) ∧
    (s.resultThenFlag x (subBytes a b) (noBorrow a b)).getV Reg.vf = (if a.toNat ≥ b.toNat then 1 else 0) ∧
    ∀ r, r ≠ x → r ≠ Reg.vf → (s.resultThenFlag x (subBytes a b) (noBorrow a b)).getV r = s.getV r := by
  refine ⟨fun hx => ?difference, ?flag, fun r => State.getV_resultThenFlag_of_ne s x _ _⟩
  case difference => rw [State.getV_resultThenFlag_self s x _ _ hx, subBytes_toNat]
  case flag => rw [State.getV_resultThenFlag_vf, noBorrow, flagByte_decide]

/-- Settles O39: each form is the shared effect with its own minuend and subtrahend. -/
theorem subtractionsSetVFWithoutBorrow : Obligations.SubtractionsSetVFWithoutBorrow := by
  rintro x y s p (rfl | rfl)
  · exact ⟨_, exec_subReg x y s, State.resultThenFlag_frame s x _ _,
      State.difference_and_noBorrow_resultThenFlag s x (s.getV x) (s.getV y)⟩
  · exact ⟨_, exec_subn x y s, State.resultThenFlag_frame s x _ _,
      State.difference_and_noBorrow_resultThenFlag s x (s.getV y) (s.getV x)⟩

end Sys2Proof.Machine
end

section
/-! The two plain writes to I: ANNN and FX29 (R200, R205). -/

namespace Sys2Proof.Machine

/-! ### The addresses of R73 and R205 as numbers, with their bounds -/

theorem zextAddr_toNat_le (nnn : Addr12) : (zextAddr nnn).toNat ≤ 0xFFF := by
  rw [zextAddr_toNat]
  exact Nat.le_of_lt_succ nnn.isLt

theorem lowNibble_le (b : Byte) : lowNibble b ≤ 15 := Nat.le_of_lt_succ (Nat.mod_lt _ (by decide))

/-- The product is at most 75, so the 16 bits of an address hold it. -/
theorem glyphAddr_toNat (b : Byte) : (glyphAddr b).toNat = lowNibble b * 5 := by
  have hle := lowNibble_le b
  rw [glyphAddr, BitVec.toNat_ofNat, Nat.mod_eq_of_lt (by omega)]

theorem glyphAddr_toNat_le (b : Byte) : (glyphAddr b).toNat ≤ 0x4B := by
  rw [glyphAddr_toNat]
  exact Nat.mul_le_mul_right 5 (lowNibble_le b)

/-! ### A write to I that goes to the next word -/

theorem State.advance_setI_frame (s : State) (a : Addr) :
    (s.setI a).advance = { s with i := (s.setI a).advance.i, pc := s.pc + 2 } := rfl

theorem State.i_advance_setI (s : State) (a : Addr) : (s.setI a).advance.i = a := rfl

/-! ### The instructions -/

theorem exec_ldI (nnn : Addr12) (s : State) : exec (.ldI nnn) s = .next (s.setI (zextAddr nnn)).advance := rfl

theorem exec_ldF (x : Reg) (s : State) : exec (.ldF x) s = .next (s.setI (glyphAddr (s.getV x))).advance := rfl

/-- Settles O42: I is the zero extension, whose number is that of a 12-bit NNN. -/
theorem loadIndexWritesItsAddress : Obligations.LoadIndexWritesItsAddress := by
  intro nnn s
  refine ⟨_, exec_ldI nnn s, State.advance_setI_frame s _, ?_⟩
  rw [State.i_advance_setI]
  exact ⟨zextAddr_toNat nnn, zextAddr_toNat_le nnn⟩

/-- Settles O43: I is the glyph address, and the last glyph, 15, begins at 0x4B. -/
theorem glyphAddressIsFiveTimesTheLowNibble : Obligations.GlyphAddressIsFiveTimesTheLowNibble := by
  intro x s
  refine ⟨_, exec_ldF x s, State.advance_setI_frame s _, ?_⟩
  rw [State.i_advance_setI]
  exact ⟨glyphAddr_toNat (s.getV x), glyphAddr_toNat_le (s.getV x)⟩

end Sys2Proof.Machine
end

section
/-! The display: 00E0 (R231). -/

namespace Sys2Proof.Machine

/-! ### A write to the framebuffer that goes to the next word -/

theorem State.advance_setFb_frame (s : State) (fb : Framebuffer) :
    (s.setFb fb).advance = { s with fb := (s.setFb fb).advance.fb, pc := s.pc + 2 } := rfl

theorem State.fb_advance_setFb (s : State) (fb : Framebuffer) : (s.setFb fb).advance.fb = fb := rfl

/-! ### The instruction -/

theorem exec_cls (s : State) : exec .cls s = .next (s.setFb Framebuffer.blank).advance := rfl

/-- Settles O51: the framebuffer becomes the blank one, of which every pixel is off, and VF is among the state kept. -/
theorem clearTurnsEveryPixelOff : Obligations.ClearTurnsEveryPixelOff := by
  intro s
  refine ⟨_, exec_cls s, State.advance_setFb_frame s _, fun r c _ _ => ?_⟩
  rw [State.fb_advance_setFb, Framebuffer.pixel_blank]

end Sys2Proof.Machine
end

section
/-! The delay timer: FX07 and FX15, and the decay that ends their cycle (R253, R255, R282). -/

namespace Sys2Proof.Machine

/-! ### Steps (c) to (e) after an instruction that leaves the machine running -/

theorem State.getV_sampleInputs (s : State) (r : Reg) : s.sampleInputs.getV r = s.getV r := by
  rw [State.sampleInputs_spec]
  rfl

theorem State.dt_sampleInputs_toNat (s : State) : s.sampleInputs.dt.toNat = s.dt.toNat - s.cycleInput.ticks := by
  rw [State.sampleInputs_spec]
  exact satSub_toNat s.dt s.cycleInput.ticks

/-- The whole cycle of an instruction that answers a running state: that state, then steps (c) to (e). -/
theorem step_of_executed {s t : State} {w : Word} {i : Instr} (hs : s.status = .running) (hw : s.fetch = .word w)
    (hi : decodeWord w = .ok i) (he : exec i s = .next t) (ht : t.status = .running) :
    step s = .next t.sampleInputs := by
  rw [step_of_decoded hs hw hi, he, finish, State.endCycle_running ht]

/-- What such a cycle leaves in the registers and in DT: the instruction took no input, so the ticks that decay its DT
are those of the state the cycle began in. -/
theorem step_getV_and_dt_of_executed {s t : State} {w : Word} {i : Instr} (hs : s.status = .running)
    (hw : s.fetch = .word w) (hi : decodeWord w = .ok i) (he : exec i s = .next t) (ht : t.status = .running)
    (hin : t.inputs = s.inputs) (hno : t.inputNo = s.inputNo) :
    ∃ u, step s = .next u ∧ (∀ r, u.getV r = t.getV r) ∧ u.dt.toNat = t.dt.toNat - s.cycleInput.ticks := by
  refine ⟨_, step_of_executed hs hw hi he ht, State.getV_sampleInputs t, ?_⟩
  rw [State.dt_sampleInputs_toNat, State.cycleInput_congr hin hno]

/-! ### A write to DT that goes to the next word -/

theorem State.advance_setDT_eq (s : State) (b : Byte) : (s.setDT b).advance = { s with dt := b, pc := s.pc + 2 } := rfl

/-! ### The instructions -/

theorem exec_ldVxDT (x : Reg) (s : State) : exec (.ldVxDT x) s = .next (s.setV x s.dt).advance := rfl

theorem exec_ldDTVx (x : Reg) (s : State) : exec (.ldDTVx x) s = .next (s.setDT (s.getV x)).advance := rfl

/-- R253 over the whole cycle: `x` keeps the DT that the decay has not reached yet. -/
theorem step_ldVxDT {s : State} {w : Word} {x : Reg} (hs : s.status = .running) (hw : s.fetch = .word w)
    (hi : decodeWord w = .ok (.ldVxDT x)) :
    ∃ u, step s = .next u ∧ u.getV x = s.dt ∧ u.dt.toNat = s.dt.toNat - s.cycleInput.ticks := by
  obtain ⟨u, hu, hv, hdt⟩ := step_getV_and_dt_of_executed hs hw hi (exec_ldVxDT x s) hs rfl rfl
  have hx : u.getV x = s.dt := by rw [hv, State.getV_advance_setV, if_pos rfl]
  exact ⟨u, hu, hx, hdt⟩

/-- R255 over the whole cycle: the decay applies to the byte just written. -/
theorem step_ldDTVx {s : State} {w : Word} {x : Reg} (hs : s.status = .running) (hw : s.fetch = .word w)
    (hi : decodeWord w = .ok (.ldDTVx x)) :
    ∃ u, step s = .next u ∧ u.dt.toNat = (s.getV x).toNat - s.cycleInput.ticks := by
  obtain ⟨u, hu, -, hdt⟩ := step_getV_and_dt_of_executed hs hw hi (exec_ldDTVx x s) hs rfl rfl
  exact ⟨u, hu, hdt⟩

/-- Settles O57: each instruction alone is one write and the next word, and its cycle decays what that write left in DT. -/
theorem delayTimerIsReadAndWritten : Obligations.DelayTimerIsReadAndWritten := by
  intro x s
  refine ⟨?read, ?write, fun w hs hw => ⟨step_ldVxDT hs hw, step_ldDTVx hs hw⟩⟩
  case read => exact ⟨_, exec_ldVxDT x s, State.advance_setV_frame s x s.dt, State.getV_advance_setV s x s.dt⟩
  case write => rw [exec_ldDTVx, State.advance_setDT_eq]

end Sys2Proof.Machine
end

section
/-! Steps (c) and (d) of every completed cycle: the timers decay by the ticks of the cycle they end (R282, R283).
The ticks are those of the state the cycle began in because steps (a) and (b) take no cycle input. -/

namespace Sys2Proof.Machine

/-! ### Steps (a) and (b) take no cycle input (R103) -/

/-- `t` has the cycle inputs of `s` still to come, and the number of the first of them. -/
def State.keepsInputs (s t : State) : Prop := t.inputs = s.inputs ∧ t.inputNo = s.inputNo

theorem State.keepsInputs.cycleInput_eq {s t : State} (h : s.keepsInputs t) : t.cycleInput = s.cycleInput :=
  State.cycleInput_congr h.left h.right

theorem State.keepsInputs_raise (s : State) (e : FatalError) : s.keepsInputs (s.raise e) := ⟨rfl, rfl⟩

theorem State.keepsInputs_guardRange {s body : State} (w : Word) (base n : Nat) (h : s.keepsInputs body) :
    s.keepsInputs (s.guardRange w base n body) := by
  obtain ⟨-, heq⟩ | ⟨-, heq⟩ := s.guardRange_cases w base n body
  · rwa [heq]
  · rw [heq]
    exact s.keepsInputs_raise _

theorem State.keepsInputs_logicResult (s : State) (x : Reg) (b : Byte) : s.keepsInputs (s.logicResult x b) := by
  unfold State.logicResult
  split <;> exact ⟨rfl, rfl⟩

theorem State.keepsInputs_waitKey (s : State) (x : Reg) : s.keepsInputs (s.waitKey x) := by
  unfold State.waitKey
  split
  · split <;> exact ⟨rfl, rfl⟩
  · exact ⟨rfl, rfl⟩

theorem State.keepsInputs_handleUnknown (s : State) (w : Word) : s.keepsInputs (s.handleUnknown w) := by
  unfold State.handleUnknown
  split
  · exact ⟨rfl, rfl⟩
  · exact s.keepsInputs_raise _

/-- Every instruction answers a next state, and that state has the inputs still to come. An instruction with one outcome
is a chain of writes to other fields; the others are named, and each of their outcomes is such a chain or a raise. -/
theorem exec_next_keepsInputs (i : Instr) (s : State) : ∃ t, exec i s = .next t ∧ s.keepsInputs t := by
  cases i with
  | ret =>
    refine ⟨_, rfl, ?_⟩
    split
    · exact s.keepsInputs_raise _
    · exact ⟨rfl, rfl⟩
  | call nnn =>
    refine ⟨_, rfl, ?_⟩
    split
    · exact ⟨rfl, rfl⟩
    · exact s.keepsInputs_raise _
  | orReg x y => exact ⟨_, rfl, s.keepsInputs_logicResult x _⟩
  | andReg x y => exact ⟨_, rfl, s.keepsInputs_logicResult x _⟩
  | xorReg x y => exact ⟨_, rfl, s.keepsInputs_logicResult x _⟩
  | drw x y n =>
    refine ⟨_, rfl, ?_⟩
    split
    · exact ⟨rfl, rfl⟩
    · exact State.keepsInputs_guardRange _ _ _ (by simp [State.keepsInputs])
  | ldVxK x =>
    refine ⟨_, rfl, ?_⟩
    split
    · exact ⟨rfl, rfl⟩
    · exact s.keepsInputs_waitKey x
  | addI x =>
    refine ⟨_, rfl, ?_⟩
    split <;> exact ⟨rfl, rfl⟩
  | ldB x => exact ⟨_, rfl, State.keepsInputs_guardRange _ _ _ (by simp [State.keepsInputs])⟩
  | stRegs x => exact ⟨_, rfl, State.keepsInputs_guardRange _ _ _ (by simp [State.keepsInputs])⟩
  | ldRegs x => exact ⟨_, rfl, State.keepsInputs_guardRange _ _ _ (by simp [State.keepsInputs])⟩
  | _ => exact ⟨_, rfl, rfl, rfl⟩

theorem exec_keepsInputs {i : Instr} {s t : State} (h : exec i s = .next t) : s.keepsInputs t := by
  obtain ⟨u, hu, hkeep⟩ := exec_next_keepsInputs i s
  obtain rfl : u = t := Host.Outcome.next.inj (hu.symm.trans h)
  exact hkeep

theorem State.executesTo.keepsInputs {s t : State} (h : s.executesTo t) : s.keepsInputs t := by
  obtain ⟨-, w, -, ⟨i, -, hexec⟩ | ⟨-, rfl⟩⟩ := h
  · exact exec_keepsInputs hexec
  · exact s.keepsInputs_handleUnknown w

/-! ### Steps (c) to (e) of a completed cycle -/

theorem State.st_sampleInputs_toNat (s : State) : s.sampleInputs.st.toNat = s.st.toNat - s.cycleInput.ticks := by
  rw [State.sampleInputs_spec]
  exact satSub_toNat s.st s.cycleInput.ticks

/-- The whole of a completed cycle, for an executed word and for an unknown one (R104, R107). -/
theorem step_of_completesWith {s t : State} (h : s.completesWith t) : step s = .next t.sampleInputs := by
  obtain ⟨⟨hs, w, hw, ⟨i, hi, hexec⟩ | ⟨⟨e, he⟩, rfl⟩⟩, ht⟩ := h
  · exact step_of_executed hs hw hi hexec ht
  · rw [step_of_unknown hs hw he, State.endCycle_running ht]

/-- Settles O14: the cycle ends with the decay by the ticks of the state after the instruction, and these are the ticks
of the state before it. -/
theorem timersDecayByTheElapsedTicks : Obligations.TimersDecayByTheElapsedTicks := by
  intro s t h
  have hin : t.cycleInput = s.cycleInput := h.left.keepsInputs.cycleInput_eq
  refine ⟨_, step_of_completesWith h, ?_, ?_⟩
  · rw [State.dt_sampleInputs_toNat, hin]
  · rw [State.st_sampleInputs_toNat, hin]

end Sys2Proof.Machine
end

section
/-! Initialisation with a ROM that fits, and the halt at a zero word (R302, R106). -/

namespace Sys2Proof.Machine

/-! ### Memory after initialisation -/

theorem resetByte_of_ge (font : Font) {a : Nat} (h : 80 ≤ a) : resetByte font a = 0 := dif_neg (by omega)

theorem readByte_initZeroed (cfg : Config) (a : Nat) : (initZeroed cfg).readByte a = resetByte cfg.font a := rfl

theorem romFits_iff (rom : List Byte) : romFits rom = true ↔ rom.length ≤ 3584 := decide_eq_true_iff

section

variable (cfg : Config) {rom : List Byte} (h : rom.length ≤ 3584)
include h

theorem State.init_of_fits :
    State.init cfg rom = (((initZeroed cfg).writeBytes programBase rom).goto 0x200).setStatus .running :=
  if_pos ((romFits_iff rom).mpr h)

theorem State.status_init_of_fits : (State.init cfg rom).status = .running := by
  rw [State.init_of_fits cfg h, State.status_setStatus]

/-- What every address reads as after initialisation: the ROM where it is placed, elsewhere the font and zeros (R39). -/
theorem State.readByte_init_of_fits (a : Nat) : (State.init cfg rom).readByte a =
    if 0x200 ≤ a ∧ a < 0x200 + rom.length then rom.getD (a - 0x200) 0 else resetByte cfg.font a := by
  rw [State.init_of_fits cfg h, State.readByte_setStatus, State.readByte_goto, State.readByte_writeBytes,
    readByte_initZeroed, programBase]

theorem State.readByte_init_in_rom {k : Nat} (hk : k < rom.length) : (State.init cfg rom).readByte (0x200 + k) = rom[k] := by
  rw [State.readByte_init_of_fits cfg h, if_pos (by omega), Nat.add_sub_cancel_left, List.getD_eq_getElem rom 0 hk]

theorem State.readByte_init_past_rom {a : Nat} (ha : 0x200 + rom.length ≤ a) : (State.init cfg rom).readByte a = 0 := by
  rw [State.readByte_init_of_fits cfg h, if_neg (by omega), resetByte_of_ge cfg.font (by omega)]

/-- Both bytes of a word past the ROM are zeros of memory, the last word's included. -/
theorem State.fetch_init_past_rom {p : Addr} (hp : 0x200 + rom.length ≤ p.toNat) (hmem : p.toNat ≤ 0xFFE) :
    ((State.init cfg rom).goto p).fetch = .word 0 := by
  rw [State.fetch_inside hmem, State.readByte_goto, State.readByte_goto, State.pc_goto,
    State.readByte_init_past_rom cfg h hp, State.readByte_init_past_rom cfg h (Nat.le_succ_of_le hp)]
  rfl

end

/-! ### The cycle that fetches the sentinel -/

theorem exec_halt (s : State) : exec .halt s = .next (s.setStatus (.halted .sentinel)) := rfl

/-- Steps (c) to (e) do not follow, since the status is no longer Running (R106). -/
theorem step_of_fetch_zero {s : State} (hs : s.status = .running) (hw : s.fetch = .word 0) :
    step s = .next (s.setStatus (.halted .sentinel)) := by
  have hdecode : decodeWord 0 = .ok .halt := rfl
  have hstopped : (s.setStatus (.halted .sentinel)).status ≠ .running := Status.noConfusion
  rw [step_of_decoded hs hw hdecode, exec_halt, finish, State.endCycle_stopped hstopped]

/-- Settles O17: the ROM is the one run of bytes written over the reset contents, so past it both bytes of a fetch are
zeros, and the word they make is the halt sentinel. -/
theorem romIsPlacedAtTheProgramBase : Obligations.RomIsPlacedAtTheProgramBase := by
  intro cfg rom hfits
  refine ⟨fun k hk => State.readByte_init_in_rom cfg hfits hk,
    fun a ha _ => State.readByte_init_past_rom cfg hfits ha, fun p hp hmem => ?_⟩
  exact step_of_fetch_zero (s := (State.init cfg rom).goto p) (State.status_init_of_fits cfg hfits)
    (State.fetch_init_past_rom cfg hfits hp hmem)

end Sys2Proof.Machine
end

section
/-! The encoding (R70 to R86): what each family decodes to, the round trip both ways, and the unknown words. -/

namespace Sys2Proof

/-! ### Decode, family by family (R74) -/

theorem fieldF_lt (w : Word) : fieldF w < 16 := by
  rw [fieldF_eq]
  omega

section

variable {w : Word}

theorem decodeWord_family0 (h : fieldF w = 0x0) : decodeWord w = decodeFamily0 w := by simp [decodeWord, h]
theorem decodeWord_family1 (h : fieldF w = 0x1) : decodeWord w = .ok (.jp (fieldNNN w)) := by simp [decodeWord, h]
theorem decodeWord_family2 (h : fieldF w = 0x2) : decodeWord w = .ok (.call (fieldNNN w)) := by simp [decodeWord, h]
theorem decodeWord_family3 (h : fieldF w = 0x3) : decodeWord w = .ok (.seImm (fieldX w) (fieldKK w)) := by
  simp [decodeWord, h]
theorem decodeWord_family4 (h : fieldF w = 0x4) : decodeWord w = .ok (.sneImm (fieldX w) (fieldKK w)) := by
  simp [decodeWord, h]
theorem decodeWord_family5 (h : fieldF w = 0x5) : decodeWord w = .ok (.seReg (fieldX w) (fieldY w)) := by
  simp [decodeWord, h]
theorem decodeWord_family6 (h : fieldF w = 0x6) : decodeWord w = .ok (.ldImm (fieldX w) (fieldKK w)) := by
  simp [decodeWord, h]
theorem decodeWord_family7 (h : fieldF w = 0x7) : decodeWord w = .ok (.addImm (fieldX w) (fieldKK w)) := by
  simp [decodeWord, h]
theorem decodeWord_family8 (h : fieldF w = 0x8) : decodeWord w = decodeFamily8 w := by simp [decodeWord, h]
theorem decodeWord_family9 (h : fieldF w = 0x9) : decodeWord w = .ok (.sneReg (fieldX w) (fieldY w)) := by
  simp [decodeWord, h]
theorem decodeWord_familyA (h : fieldF w = 0xA) : decodeWord w = .ok (.ldI (fieldNNN w)) := by simp [decodeWord, h]
theorem decodeWord_familyB (h : fieldF w = 0xB) : decodeWord w = .ok (.jpV0 (fieldNNN w)) := by simp [decodeWord, h]
theorem decodeWord_familyC (h : fieldF w = 0xC) : decodeWord w = .ok (.rnd (fieldX w) (fieldKK w)) := by
  simp [decodeWord, h]
theorem decodeWord_familyD (h : fieldF w = 0xD) : decodeWord w = .ok (.drw (fieldX w) (fieldY w) (fieldN w)) := by
  simp [decodeWord, h]
theorem decodeWord_familyE (h : fieldF w = 0xE) : decodeWord w = decodeFamilyE w := by simp [decodeWord, h]
theorem decodeWord_familyF (h : fieldF w = 0xF) : decodeWord w = decodeFamilyF w := by simp [decodeWord, h]

end

/-! ### Decode after encode -/

/-- The words of fields select by their fields, the three whole words of family 0 by themselves. -/
theorem decodeWord_encode (i : Instr) : decodeWord (encode i) = .ok i := by
  cases i with
  | halt => rfl
  | cls => rfl
  | ret => rfl
  | _ => simp [encode, decodeWord, decodeFamily8, decodeFamilyE, decodeFamilyF]

theorem Instr.rowHolds_encode (i : Instr) : i.rowHolds (encode i) = true := by
  cases i with
  | halt => exact Laws.OwnRow.halt
  | cls => exact Laws.OwnRow.cls
  | ret => exact Laws.OwnRow.ret
  | jp nnn => exact Laws.OwnRow.jp nnn
  | call nnn => exact Laws.OwnRow.call nnn
  | seImm x kk => exact Laws.OwnRow.seImm x kk
  | sneImm x kk => exact Laws.OwnRow.sneImm x kk
  | seReg x y => exact Laws.OwnRow.seReg x y
  | ldImm x kk => exact Laws.OwnRow.ldImm x kk
  | addImm x kk => exact Laws.OwnRow.addImm x kk
  | ldReg x y => exact Laws.OwnRow.ldReg x y
  | orReg x y => exact Laws.OwnRow.orReg x y
  | andReg x y => exact Laws.OwnRow.andReg x y
  | xorReg x y => exact Laws.OwnRow.xorReg x y
  | addReg x y => exact Laws.OwnRow.addReg x y
  | subReg x y => exact Laws.OwnRow.subReg x y
  | shr x y => exact Laws.OwnRow.shr x y
  | subn x y => exact Laws.OwnRow.subn x y
  | shl x y => exact Laws.OwnRow.shl x y
  | sneReg x y => exact Laws.OwnRow.sneReg x y
  | ldI nnn => exact Laws.OwnRow.ldI nnn
  | jpV0 nnn => exact Laws.OwnRow.jpV0 nnn
  | rnd x kk => exact Laws.OwnRow.rnd x kk
  | drw x y n => exact Laws.OwnRow.drw x y n
  | skp x => exact Laws.OwnRow.skp x
  | sknp x => exact Laws.OwnRow.sknp x
  | ldVxDT x => exact Laws.OwnRow.ldVxDT x
  | ldVxK x => exact Laws.OwnRow.ldVxK x
  | ldDTVx x => exact Laws.OwnRow.ldDTVx x
  | ldSTVx x => exact Laws.OwnRow.ldSTVx x
  | addI x => exact Laws.OwnRow.addI x
  | ldF x => exact Laws.OwnRow.ldF x
  | ldB x => exact Laws.OwnRow.ldB x
  | stRegs x => exact Laws.OwnRow.stRegs x
  | ldRegs x => exact Laws.OwnRow.ldRegs x

/-- Settles O1: the fields of an encoded word are the operands put into it, and its bits under the mask its own row's. -/
theorem decodeOfEncodeIsTheInstruction : Obligations.DecodeOfEncodeIsTheInstruction := by
  intro i _
  exact ⟨decodeWord_encode i, i.rowHolds_encode⟩

/-! ### Encode after decode -/

theorem canonicalWord_of_ne {w : Word} (h5 : fieldF w ≠ 0x5) (h9 : fieldF w ≠ 0x9) : canonicalWord w = w :=
  if_neg (not_or.mpr ⟨h5, h9⟩)

/-- The canonical word of the families that ignore their low nibble has that nibble 0 and the other fields as they are. -/
theorem canonicalWord_eq_wordFXYN {w : Word} {f : Fin 16} (h : fieldF w = f.val) (hf : f.val = 0x5 ∨ f.val = 0x9) :
    canonicalWord w = wordFXYN f (fieldX w) (fieldY w) 0 := by
  rw [canonicalWord, if_pos (by rwa [h])]
  apply BitVec.eq_of_toNat_eq
  rw [fieldF_eq] at h
  rw [and_FFF0, wordFXYN_toNat, fieldX_val, fieldY_val, Fin.val_zero]
  omega

theorem fieldF_canonicalWord (w : Word) : fieldF (canonicalWord w) = fieldF w := by
  unfold canonicalWord
  split
  · rw [fieldF_eq, fieldF_eq, and_FFF0]
    omega
  · rfl

theorem encode_of_decodeFamily0 {w : Word} {i : Instr} (h : decodeFamily0 w = .ok i) : encode i = w := by
  unfold decodeFamily0 at h
  split_ifs at h <;> cases h <;> simp [encode, *]

/-- A word is put together from its fields, of which `N` may be given by its value. -/
theorem wordFXYN_of_fields {w : Word} {f n : Fin 16} (hF : fieldF w = f.val) (hN : (fieldN w).val = n.val) :
    wordFXYN f (fieldX w) (fieldY w) n = w := by
  rw [← Fin.ext hN, ← word_eq_wordFXYN hF]

/-- A word is put together from its fields, of which `KK` may be given by its value. -/
theorem wordFXKK_of_fields {w : Word} {f : Fin 16} {kk : Byte} (hF : fieldF w = f.val)
    (hKK : (fieldKK w).toNat = kk.toNat) : wordFXKK f (fieldX w) kk = w := by
  rw [← BitVec.eq_of_toNat_eq hKK, ← word_eq_wordFXKK hF]

theorem encode_of_decodeFamily8 {w : Word} {i : Instr} (hF : fieldF w = 0x8) (h : decodeFamily8 w = .ok i) :
    encode i = w := by
  unfold decodeFamily8 at h
  split at h <;> cases h <;> exact wordFXYN_of_fields hF ‹_›

theorem encode_of_decodeFamilyE {w : Word} {i : Instr} (hF : fieldF w = 0xE) (h : decodeFamilyE w = .ok i) :
    encode i = w := by
  unfold decodeFamilyE at h
  split at h <;> cases h <;> exact wordFXKK_of_fields hF ‹_›

theorem encode_of_decodeFamilyF {w : Word} {i : Instr} (hF : fieldF w = 0xF) (h : decodeFamilyF w = .ok i) :
    encode i = w := by
  unfold decodeFamilyF at h
  split at h <;> cases h <;> exact wordFXKK_of_fields hF ‹_›

/-- Settles O2: family by family, the word is its fields put together, and in families 5 and 9 the nibble put in is 0. -/
theorem encodeOfDecodeIsTheCanonicalWord : Obligations.EncodeOfDecodeIsTheCanonicalWord := by
  intro w i h
  have hlt := fieldF_lt w
  by_cases h59 : fieldF w = 0x5 ∨ fieldF w = 0x9
  · obtain hF | hF := h59
    · rw [decodeWord_family5 hF] at h
      cases h
      exact (canonicalWord_eq_wordFXYN (f := 0x5) hF (.inl rfl)).symm
    · rw [decodeWord_family9 hF] at h
      cases h
      exact (canonicalWord_eq_wordFXYN (f := 0x9) hF (.inr rfl)).symm
  · rw [canonicalWord, if_neg h59]
    generalize hF : fieldF w = f at h59 hlt
    match f with
    | 0x0 => exact encode_of_decodeFamily0 (decodeWord_family0 hF ▸ h)
    | 0x1 => rw [decodeWord_family1 hF] at h; cases h; exact (word_eq_wordFNNN (f := 0x1) hF).symm
    | 0x2 => rw [decodeWord_family2 hF] at h; cases h; exact (word_eq_wordFNNN (f := 0x2) hF).symm
    | 0x3 => rw [decodeWord_family3 hF] at h; cases h; exact (word_eq_wordFXKK (f := 0x3) hF).symm
    | 0x4 => rw [decodeWord_family4 hF] at h; cases h; exact (word_eq_wordFXKK (f := 0x4) hF).symm
    | 0x5 => exact absurd (.inl rfl) h59
    | 0x6 => rw [decodeWord_family6 hF] at h; cases h; exact (word_eq_wordFXKK (f := 0x6) hF).symm
    | 0x7 => rw [decodeWord_family7 hF] at h; cases h; exact (word_eq_wordFXKK (f := 0x7) hF).symm
    | 0x8 => exact encode_of_decodeFamily8 hF (decodeWord_family8 hF ▸ h)
    | 0x9 => exact absurd (.inr rfl) h59
    | 0xA => rw [decodeWord_familyA hF] at h; cases h; exact (word_eq_wordFNNN (f := 0xA) hF).symm
    | 0xB => rw [decodeWord_familyB hF] at h; cases h; exact (word_eq_wordFNNN (f := 0xB) hF).symm
    | 0xC => rw [decodeWord_familyC hF] at h; cases h; exact (word_eq_wordFXKK (f := 0xC) hF).symm
    | 0xD => rw [decodeWord_familyD hF] at h; cases h; exact (word_eq_wordFXYN (f := 0xD) hF).symm
    | 0xE => exact encode_of_decodeFamilyE hF (decodeWord_familyE hF ▸ h)
    | 0xF => exact encode_of_decodeFamilyF hF (decodeWord_familyF hF ▸ h)
    | f + 16 => omega

/-- Outside families 5 and 9 decode ignores nothing, so the encoding is the word itself. -/
theorem encode_of_decodeWord {w : Word} {i : Instr} (h : decodeWord w = .ok i) (h5 : fieldF (encode i) ≠ 0x5)
    (h9 : fieldF (encode i) ≠ 0x9) : encode i = w := by
  have henc := encodeOfDecodeIsTheCanonicalWord w i h
  rw [henc, fieldF_canonicalWord] at h5 h9
  rw [henc, canonicalWord_of_ne h5 h9]

/-! ### The match and mask columns (R80) -/

/-- The bits that decode ignores lie outside the mask of the row decoded into. -/
theorem canonicalWord_and_mask {w : Word} {i : Instr} (h : decodeWord w = .ok i) :
    canonicalWord w &&& i.mask = w &&& i.mask := by
  by_cases h59 : fieldF w = 0x5 ∨ fieldF w = 0x9
  · have hmask : i.mask = 0xF000#16 := by
      obtain hF | hF := h59
      · rw [decodeWord_family5 hF] at h
        cases h
        rfl
      · rw [decodeWord_family9 hF] at h
        cases h
        rfl
    have hand : 0xFFF0#16 &&& 0xF000#16 = 0xF000#16 := rfl
    rw [canonicalWord, if_pos h59, hmask, BitVec.and_assoc, hand]
  · rw [canonicalWord, if_neg h59]

theorem rowHolds_of_decodeWord {w : Word} {i : Instr} (h : decodeWord w = .ok i) : i.rowHolds w = true := by
  have hrow := i.rowHolds_encode
  rwa [encodeOfDecodeIsTheCanonicalWord w i h, Instr.rowHolds, canonicalWord_and_mask h] at hrow

/-- What a row says of the fields, for each of its masks. -/
theorem fieldF_of_row {w c : Word} (h : (w &&& 0xF000#16) = c) : fieldF w = c.toNat / 4096 := by
  rw [← h, and_F000, fieldF_eq]
  omega

theorem fieldF_fieldN_of_row {w c : Word} (h : (w &&& 0xF00F#16) = c) :
    fieldF w = c.toNat / 4096 ∧ (fieldN w).val = c.toNat % 16 := by
  rw [← h, and_F00F, fieldF_eq, fieldN_val]
  omega

theorem fieldF_fieldKK_of_row {w c : Word} (h : (w &&& 0xF0FF#16) = c) :
    fieldF w = c.toNat / 4096 ∧ (fieldKK w).toNat = c.toNat % 256 := by
  rw [← h, and_F0FF, fieldF_eq, fieldKK_toNat]
  omega

theorem eq_of_row {w c : Word} (h : (w &&& 0xFFFF#16) = c) : w = c := by
  rw [← h]
  exact BitVec.eq_of_toNat_eq (and_FFFF w).symm

/-- `i` with its operands replaced by the fields of `w`. -/
def Instr.withFieldsOf (w : Word) : Instr → Instr
  | .halt => .halt
  | .cls => .cls
  | .ret => .ret
  | .jp _ => .jp (fieldNNN w)
  | .call _ => .call (fieldNNN w)
  | .seImm _ _ => .seImm (fieldX w) (fieldKK w)
  | .sneImm _ _ => .sneImm (fieldX w) (fieldKK w)
  | .seReg _ _ => .seReg (fieldX w) (fieldY w)
  | .ldImm _ _ => .ldImm (fieldX w) (fieldKK w)
  | .addImm _ _ => .addImm (fieldX w) (fieldKK w)
  | .ldReg _ _ => .ldReg (fieldX w) (fieldY w)
  | .orReg _ _ => .orReg (fieldX w) (fieldY w)
  | .andReg _ _ => .andReg (fieldX w) (fieldY w)
  | .xorReg _ _ => .xorReg (fieldX w) (fieldY w)
  | .addReg _ _ => .addReg (fieldX w) (fieldY w)
  | .subReg _ _ => .subReg (fieldX w) (fieldY w)
  | .shr _ _ => .shr (fieldX w) (fieldY w)
  | .subn _ _ => .subn (fieldX w) (fieldY w)
  | .shl _ _ => .shl (fieldX w) (fieldY w)
  | .sneReg _ _ => .sneReg (fieldX w) (fieldY w)
  | .ldI _ => .ldI (fieldNNN w)
  | .jpV0 _ => .jpV0 (fieldNNN w)
  | .rnd _ _ => .rnd (fieldX w) (fieldKK w)
  | .drw _ _ _ => .drw (fieldX w) (fieldY w) (fieldN w)
  | .skp _ => .skp (fieldX w)
  | .sknp _ => .sknp (fieldX w)
  | .ldVxDT _ => .ldVxDT (fieldX w)
  | .ldVxK _ => .ldVxK (fieldX w)
  | .ldDTVx _ => .ldDTVx (fieldX w)
  | .ldSTVx _ => .ldSTVx (fieldX w)
  | .addI _ => .addI (fieldX w)
  | .ldF _ => .ldF (fieldX w)
  | .ldB _ => .ldB (fieldX w)
  | .stRegs _ => .stRegs (fieldX w)
  | .ldRegs _ => .ldRegs (fieldX w)

theorem decodeWord_of_rowHolds {w : Word} {i : Instr} (h : i.rowHolds w = true) :
    decodeWord w = .ok (i.withFieldsOf w) := by
  rw [Instr.rowHolds, beq_iff_eq] at h
  cases i with
  | halt => rw [eq_of_row h]; rfl
  | cls => rw [eq_of_row h]; rfl
  | ret => rw [eq_of_row h]; rfl
  | jp | call | seImm | sneImm | seReg | ldImm | addImm | sneReg | ldI | jpV0 | rnd | drw =>
    have hF := fieldF_of_row h
    simp only [Instr.code, BitVec.toNat_ofNat, Nat.reducePow, Nat.reduceMod, Nat.reduceDiv] at hF
    simp [decodeWord, hF, Instr.withFieldsOf]
  | ldReg | orReg | andReg | xorReg | addReg | subReg | shr | subn | shl =>
    obtain ⟨hF, hN⟩ := fieldF_fieldN_of_row h
    simp only [Instr.code, BitVec.toNat_ofNat, Nat.reducePow, Nat.reduceMod, Nat.reduceDiv] at hF hN
    simp [decodeWord_family8 hF, decodeFamily8, hN, Instr.withFieldsOf]
  | skp | sknp =>
    obtain ⟨hF, hKK⟩ := fieldF_fieldKK_of_row h
    simp only [Instr.code, BitVec.toNat_ofNat, Nat.reducePow, Nat.reduceMod, Nat.reduceDiv] at hF hKK
    simp [decodeWord_familyE hF, decodeFamilyE, hKK, Instr.withFieldsOf]
  | ldVxDT | ldVxK | ldDTVx | ldSTVx | addI | ldF | ldB | stRegs | ldRegs =>
    obtain ⟨hF, hKK⟩ := fieldF_fieldKK_of_row h
    simp only [Instr.code, BitVec.toNat_ofNat, Nat.reducePow, Nat.reduceMod, Nat.reduceDiv] at hF hKK
    simp [decodeWord_familyF hF, decodeFamilyF, hKK, Instr.withFieldsOf]

theorem Instr.mask_withFieldsOf (w : Word) (i : Instr) : (i.withFieldsOf w).mask = i.mask := by cases i <;> rfl

theorem Instr.code_withFieldsOf (w : Word) (i : Instr) : (i.withFieldsOf w).code = i.code := by cases i <;> rfl

/-- Settles O3: the row of the decoded instruction is that of its encoding, and a row that holds gives the fields that
select it. -/
theorem decodeFollowsTheOpcodeMap : Obligations.DecodeFollowsTheOpcodeMap :=
  ⟨fun _ _ => rowHolds_of_decodeWord,
    fun w i h => ⟨_, decodeWord_of_rowHolds h, i.mask_withFieldsOf w, i.code_withFieldsOf w⟩⟩

/-! ### The unknown words (R81) -/

/-- Decode of a word gives an error. -/
def rejects (d : Except DecodeError Instr) : Bool :=
  match d with
  | .ok _ => false
  | .error _ => true

theorem rejects_iff (d : Except DecodeError Instr) : (∃ e, d = .error e) ↔ rejects d = true := by
  cases d <;> simp [rejects]

theorem rejects_decodeFamily0 (w : Word) :
    rejects (decodeFamily0 w) = !([0x0000#16, 0x00E0#16, 0x00EE#16].contains w) := by
  unfold decodeFamily0
  split_ifs <;> simp [rejects, *]

theorem rejects_decodeFamily8 (w : Word) :
    rejects (decodeFamily8 w) = [0x8, 0x9, 0xA, 0xB, 0xC, 0xD, 0xF].contains (fieldN w).val := by
  unfold decodeFamily8
  generalize fieldN w = n
  fin_cases n <;> rfl

theorem rejects_decodeFamilyE (w : Word) : rejects (decodeFamilyE w) = !([0x9E#8, 0xA1#8].contains (fieldKK w)) := by
  unfold decodeFamilyE
  generalize fieldKK w = kk
  split <;> simp_all [rejects, BitVec.toNat_eq]

theorem rejects_decodeFamilyF (w : Word) : rejects (decodeFamilyF w) =
    !([0x07#8, 0x0A#8, 0x15#8, 0x18#8, 0x1E#8, 0x29#8, 0x33#8, 0x55#8, 0x65#8].contains (fieldKK w)) := by
  unfold decodeFamilyF
  generalize fieldKK w = kk
  split <;> simp_all [rejects, BitVec.toNat_eq]

theorem rejects_decodeWord (w : Word) : rejects (decodeWord w) = unknownWord w := by
  have hlt := fieldF_lt w
  unfold unknownWord
  rw [← rejects_decodeFamily0, ← rejects_decodeFamily8, ← rejects_decodeFamilyE, ← rejects_decodeFamilyF, decodeWord]
  generalize fieldF w = f at hlt
  interval_cases f <;> simp [rejects]

/-- Settles O4: four families can reject, each exactly the words of its own bullet. -/
theorem decodeRejectsExactlyTheUnknownWords : Obligations.DecodeRejectsExactlyTheUnknownWords := by
  intro w
  rw [rejects_iff, rejects_decodeWord]

/-- Settles O5: each word is closed, so decode computes. -/
theorem sampleWordsDecode : Obligations.SampleWordsDecode := by
  unfold Obligations.SampleWordsDecode
  decide

end Sys2Proof
end

section
/-! What an instruction can do, said once for all of them: it completes within its frame, halts at the sentinel, or
raises (spec/10_state.md R24 to R38, spec/60_exceptions.md R270). -/

namespace Sys2Proof.Machine

/-! ### The instructions not yet met, each by its definition -/

theorem exec_ret (s : State) : exec .ret s =
    .next (if s.sp.val = 0 then s.raise (.stackUnderflow s.pc (encode .ret)) else s.pop.goto s.top) := rfl

theorem exec_call (nnn : Addr12) (s : State) : exec (.call nnn) s =
    .next (if h : s.sp.val < 16 then (s.push (nextPc s.pc) h).goto (zextAddr nnn)
      else s.raise (.stackOverflow s.pc (encode (.call nnn)))) := rfl

theorem exec_drw (x y : Reg) (n : Fin 16) (s : State) : exec (.drw x y n) s =
    .next (if n.val = 0 then s.showSprite (s.spriteDrawn x y n)
      else s.guardRange (encode (.drw x y n)) s.i.toNat n.val (s.showSprite (s.spriteDrawn x y n))) := rfl

theorem exec_ldB (x : Reg) (s : State) : exec (.ldB x) s =
    .next (s.guardRange (encode (.ldB x)) s.i.toNat 3 (s.writeBytes s.i.toNat (bcdDigits (s.getV x))).advance) := rfl

theorem exec_stRegs (x : Reg) (s : State) : exec (.stRegs x) s =
    .next (s.guardRange (encode (.stRegs x)) s.i.toNat (x.val + 1)
      ((s.writeBytes s.i.toNat (s.regsUpTo x)).setI (indexPast s.i x)).advance) := rfl

theorem exec_ldRegs (x : Reg) (s : State) : exec (.ldRegs x) s =
    .next (s.guardRange (encode (.ldRegs x)) s.i.toNat (x.val + 1)
      ((s.loadRegs (x.val + 1) fun k => s.readByte (s.i.toNat + k)).setI (indexPast s.i x)).advance) := rfl

/-- An instruction answers at most one next state, so what is shown of one that it answers holds of any. -/
theorem exec_next_elim {i : Instr} {s t : State} {P : State → Prop} (hex : ∃ u, exec i s = .next u ∧ P u)
    (h : exec i s = .next t) : P t := by
  obtain ⟨u, hu, hP⟩ := hex
  rwa [← Host.Outcome.next.inj (hu.symm.trans h)]

theorem exec_next (i : Instr) (s : State) : ∃ t, exec i s = .next t := by
  obtain ⟨t, ht, -⟩ := exec_next_keepsInputs i s
  exact ⟨t, ht⟩

/-! ### The frame of an instruction -/

/-- `t` differs from `s` outside V, I, pc and the status only in what `i` is named as a writer of. -/
structure State.KeepsBut (i : Instr) (s t : State) : Prop where
  config  : t.config = s.config
  mem     : t.mem = s.mem ∨ ∃ x, i = .ldB x ∨ i = .stRegs x
  stack   : t.stack = s.stack ∨ ∃ nnn, i = .call nnn
  sp      : t.sp = s.sp ∨ i = .ret ∨ ∃ nnn, i = .call nnn
  dt      : t.dt = s.dt ∨ ∃ x, i = .ldDTVx x
  st      : t.st = s.st ∨ ∃ x, i = .ldSTVx x
  fb      : t.fb = s.fb ∨ i = .cls ∨ ∃ x y n, i = .drw x y n
  key     : t.key = s.key
  wait    : (t.kwait = s.kwait ∧ t.kprev = s.kprev) ∨ ∃ x, i = .ldVxK x
  fbOut   : t.fbOut = s.fbOut
  events  : t.events = s.events
  inputs  : t.inputs = s.inputs
  inputNo : t.inputNo = s.inputNo
  rands   : (t.rands = s.rands ∧ t.randNo = s.randNo) ∨ ∃ x kk, i = .rnd x kk

theorem State.KeepsBut.refl (i : Instr) (s : State) : s.KeepsBut i s where
  config  := rfl
  mem     := .inl rfl
  stack   := .inl rfl
  sp      := .inl rfl
  dt      := .inl rfl
  st      := .inl rfl
  fb      := .inl rfl
  key     := rfl
  wait    := .inl ⟨rfl, rfl⟩
  fbOut   := rfl
  events  := rfl
  inputs  := rfl
  inputNo := rfl
  rands   := .inl ⟨rfl, rfl⟩

/-- Writes to V, I and pc are in every instruction's frame. -/
theorem State.keepsBut_registers (i : Instr) (s : State) (v : Vector Byte 16) (a pc : Addr) :
    s.KeepsBut i { s with v := v, i := a, pc := pc } := { State.KeepsBut.refl i s with }

/-- The registers that `loadRegs` writes, as one value. -/
theorem State.exists_loadRegs_eq (s : State) (n : Nat) (f : Nat → Byte) : ∃ v, s.loadRegs n f = { s with v := v } := ⟨_, rfl⟩

theorem State.keepsBut_loadRegs (i : Instr) (s : State) (n : Nat) (f : Nat → Byte) (a : Addr) :
    s.KeepsBut i ((s.loadRegs n f).setI a).advance := by
  obtain ⟨v, hv⟩ := s.exists_loadRegs_eq n f
  rw [hv]
  exact s.keepsBut_registers i _ _ _

theorem State.keepsBut_logicResult (i : Instr) (s : State) (x : Reg) (b : Byte) : s.KeepsBut i (s.logicResult x b) := by
  unfold State.logicResult
  split <;> exact s.keepsBut_registers _ _ _ _

theorem State.status_logicResult (s : State) (x : Reg) (b : Byte) : (s.logicResult x b).status = s.status := by
  unfold State.logicResult
  split <;> rfl

theorem State.keepsBut_waitKey (s : State) (x : Reg) : s.KeepsBut (.ldVxK x) (s.waitKey x) := by
  unfold State.waitKey
  split
  · split <;> exact { State.KeepsBut.refl _ s with wait := .inr ⟨x, rfl⟩ }
  · exact { State.KeepsBut.refl _ s with wait := .inr ⟨x, rfl⟩ }

theorem State.status_waitKey (s : State) (x : Reg) : (s.waitKey x).status = s.status := by
  unfold State.waitKey
  split
  · split <;> rfl
  · rfl

/-! ### Raising (R270) -/

/-- The range of `n` bytes from I leaves memory, and `e` is the error that `i` records for it (R202, R274). -/
def State.rangeRaises (s : State) (i : Instr) (n : Nat) (e : FatalError) : Prop :=
  s.i.toNat + n > 0x1000 ∧ e = .outOfBounds s.pc (some (encode i)) (max s.i.toNat 0x1000)

/-- `i` raises `e` in state `s`. -/
def State.raises (s : State) (i : Instr) (e : FatalError) : Prop :=
  match i with
  | .ret => s.sp = 0 ∧ e = .stackUnderflow s.pc (encode i)
  | .call _ => s.sp = 16 ∧ e = .stackOverflow s.pc (encode i)
  | .drw _ _ n => 1 ≤ n.val ∧ s.rangeRaises i n.val e
  | .ldB _ => s.rangeRaises i 3 e
  | .stRegs x => s.rangeRaises i (x.val + 1) e
  | .ldRegs x => s.rangeRaises i (x.val + 1) e
  | _ => False

/-- The three ways an instruction can end. -/
inductive State.Outcome (i : Instr) (s t : State) : Prop where
  | completes (hs : t.status = s.status) (h : s.KeepsBut i t)
  | halts (hi : i = .halt) (ht : t = s.setStatus (.halted .sentinel))
  | raises (e : FatalError) (hi : s.raises i e) (ht : t = s.raise e)

/-- A range check either lets the body happen or raises with the lowest illegal address. -/
theorem State.outcome_guardRange {i : Instr} {s body : State} {n : Nat}
    (hraises : ∀ e, s.rangeRaises i n e → s.raises i e) (hs : body.status = s.status) (hbody : s.KeepsBut i body) :
    s.Outcome i (s.guardRange (encode i) s.i.toNat n body) := by
  obtain ⟨-, heq⟩ | ⟨hrange, heq⟩ := s.guardRange_cases (encode i) s.i.toNat n body
  · rw [heq]
    exact .completes hs hbody
  · rw [heq]
    exact .raises _ (hraises _ ⟨by omega, rfl⟩) rfl

/-- Every instruction answers a next state, in one of the three ways. -/
theorem exec_next_outcome (i : Instr) (s : State) : ∃ t, exec i s = .next t ∧ s.Outcome i t := by
  cases i with
  | halt => exact ⟨_, rfl, .halts rfl rfl⟩
  | cls => exact ⟨_, rfl, .completes rfl { State.KeepsBut.refl _ s with fb := .inr (.inl rfl) }⟩
  | ret =>
    refine ⟨_, exec_ret s, ?_⟩
    split
    case isTrue h => exact .raises _ ⟨Fin.ext h, rfl⟩ rfl
    case isFalse => exact .completes rfl { State.KeepsBut.refl _ s with sp := .inr (.inl rfl) }
  | call nnn =>
    refine ⟨_, exec_call nnn s, ?_⟩
    split
    case isTrue h =>
      exact .completes rfl { State.KeepsBut.refl _ s with stack := .inr ⟨nnn, rfl⟩, sp := .inr (.inr ⟨nnn, rfl⟩) }
    case isFalse h => exact .raises _ ⟨Fin.ext (by show s.sp.val = 16; omega), rfl⟩ rfl
  | orReg x y => exact ⟨_, rfl, .completes (s.status_logicResult x _) (s.keepsBut_logicResult _ x _)⟩
  | andReg x y => exact ⟨_, rfl, .completes (s.status_logicResult x _) (s.keepsBut_logicResult _ x _)⟩
  | xorReg x y => exact ⟨_, rfl, .completes (s.status_logicResult x _) (s.keepsBut_logicResult _ x _)⟩
  | rnd x kk => exact ⟨_, rfl, .completes rfl { State.KeepsBut.refl _ s with rands := .inr ⟨x, kk, rfl⟩ }⟩
  | drw x y n =>
    refine ⟨_, exec_drw x y n s, ?_⟩
    have hshow : ∀ p, s.KeepsBut (.drw x y n) (s.showSprite p) := fun p =>
      { State.KeepsBut.refl _ s with fb := .inr (.inr ⟨x, y, n, rfl⟩) }
    split
    case isTrue => exact .completes rfl (hshow _)
    case isFalse h => exact State.outcome_guardRange (fun e he => ⟨by omega, he⟩) rfl (hshow _)
  | ldVxK x =>
    refine ⟨_, rfl, ?_⟩
    split
    · exact .completes rfl (s.keepsBut_registers _ _ _ _)
    · exact .completes (s.status_waitKey x) (s.keepsBut_waitKey x)
  | ldDTVx x => exact ⟨_, rfl, .completes rfl { State.KeepsBut.refl _ s with dt := .inr ⟨x, rfl⟩ }⟩
  | ldSTVx x => exact ⟨_, rfl, .completes rfl { State.KeepsBut.refl _ s with st := .inr ⟨x, rfl⟩ }⟩
  | addI x =>
    refine ⟨_, rfl, ?_⟩
    split <;> exact .completes rfl (s.keepsBut_registers _ _ _ _)
  | ldB x =>
    exact ⟨_, exec_ldB x s, State.outcome_guardRange (fun _ he => he) rfl
      { State.KeepsBut.refl _ s with mem := .inr ⟨x, .inl rfl⟩ }⟩
  | stRegs x =>
    exact ⟨_, exec_stRegs x s, State.outcome_guardRange (fun _ he => he) rfl
      { State.KeepsBut.refl _ s with mem := .inr ⟨x, .inr rfl⟩ }⟩
  | ldRegs x =>
    exact ⟨_, exec_ldRegs x s, State.outcome_guardRange (fun _ he => he) (by simp) (s.keepsBut_loadRegs _ _ _ _)⟩
  | _ => exact ⟨_, rfl, .completes rfl (s.keepsBut_registers _ _ _ _)⟩

theorem exec_outcome {i : Instr} {s t : State} (h : exec i s = .next t) : s.Outcome i t :=
  exec_next_elim (exec_next_outcome i s) h

theorem State.Outcome.keepsBut {i : Instr} {s t : State} (h : s.Outcome i t) : s.KeepsBut i t := by
  cases h with
  | completes _ h => exact h
  | halts _ ht => exact ht ▸ { State.KeepsBut.refl i s with }
  | raises _ _ ht => exact ht ▸ { State.KeepsBut.refl i s with }

theorem exec_keepsBut {i : Instr} {s t : State} (h : exec i s = .next t) : s.KeepsBut i t := (exec_outcome h).keepsBut

theorem State.instr_of_raises {i : Instr} {s : State} {e : FatalError} (h : s.raises i e) :
    i = .ret ∨ (∃ nnn, i = .call nnn) ∨ (∃ x y n, i = .drw x y n) ∨ ∃ x, i = .ldB x ∨ i = .stRegs x ∨ i = .ldRegs x := by
  cases i with
  | ret | call | drw | ldB | stRegs | ldRegs => simp
  | _ => exact h.elim

theorem exec_status_cases {i : Instr} {s t : State} (h : exec i s = .next t) : t.status = s.status ∨ i = .halt ∨
    i = .ret ∨ (∃ nnn, i = .call nnn) ∨ (∃ x y n, i = .drw x y n) ∨ ∃ x, i = .ldB x ∨ i = .stRegs x ∨ i = .ldRegs x := by
  cases exec_outcome h with
  | completes hs => exact .inl hs
  | halts hi => exact .inr (.inl hi)
  | raises _ hi => exact .inr (.inr (State.instr_of_raises hi))

/-- Settles O25: each clause is one line of the frame, and the status is written only by halting or raising. -/
theorem otherStateIsWrittenOnlyByItsWriters : Obligations.OtherStateIsWrittenOnlyByItsWriters := by
  intro i s t h
  have frame := exec_keepsBut h
  refine ⟨frame.mem.resolve_left, frame.fb.resolve_left, frame.sp.resolve_left, frame.stack.resolve_left,
    frame.dt.resolve_left, frame.st.resolve_left, fun hne => ?wait, (exec_status_cases h).resolve_left, frame.key,
    frame.config, frame.fbOut, frame.events, fun hne => ?rands, frame.inputs, frame.inputNo⟩
  case wait => exact frame.wait.resolve_left fun ⟨hw, hp⟩ => hne.elim (absurd hw) (absurd hp)
  case rands => exact frame.rands.resolve_left fun ⟨hr, hn⟩ => hne.elim (absurd hr) (absurd hn)

end Sys2Proof.Machine
end

section
/-! The invariants of spec/10_state.md R30, R34, R35: each holds after initialisation and every step keeps it. -/

namespace Sys2Proof.Machine

/-! ### A step keeps what each of its parts keeps (R104) -/

theorem State.handleUnknown_nop {s : State} (h : s.config.unknownOpcode = .nop) (w : Word) :
    s.handleUnknown w = (s.emit (.diag s.pc w)).advance := by
  rw [State.handleUnknown, h]

theorem State.handleUnknown_fatal {s : State} (h : s.config.unknownOpcode = .fatal) (w : Word) :
    s.handleUnknown w = s.raise (.unknownOpcode s.pc w) := by
  rw [State.handleUnknown, h]

/-- An unknown word can move pc, emit an event and write the status, and does nothing else (R107). -/
theorem State.exists_handleUnknown_eq (s : State) (w : Word) :
    ∃ pc evs st, s.handleUnknown w = { s with pc := pc, events := evs, status := st } := by
  unfold State.handleUnknown
  split <;> exact ⟨_, _, _, rfl⟩

theorem step_keeps {P : State → Prop} (hraise : ∀ s e, P s → P (s.raise e))
    (hunknown : ∀ s w e, s.fetch = .word w → decodeWord w = .error e → P s → P (s.handleUnknown w))
    (hexec : ∀ s t w i, s.fetch = .word w → decodeWord w = .ok i → exec i s = .next t → P s → P t)
    (hsample : ∀ s, P s → P s.sampleInputs) {s t : State} (hs : P s) (h : step s = .next t) : P t := by
  have hend : ∀ u : State, P u → P u.endCycle := fun u hu => by
    unfold State.endCycle
    split
    · exact hsample u hu
    · exact hu
  obtain ⟨-, ⟨-, rfl⟩ | ⟨w, hw, ⟨i, u, hi, hu, rfl⟩ | ⟨e, he, rfl⟩⟩⟩ := step_cases h
  · exact hraise s _ hs
  · exact hend u (hexec s u w i hw hi hu hs)
  · exact hend _ (hunknown s w e hw he hs)

/-! ### Memory in canonical form (R35) -/

theorem State.memoryCanonical.congr {s t : State} (h : s.memoryCanonical) (hc : t.config = s.config) (hm : t.mem = s.mem) :
    t.memoryCanonical := by
  rwa [State.memoryCanonical, hc, hm]

/-- A store that the range check lets happen stays inside the 4096 addresses. -/
theorem State.memoryCanonical_guarded_store {s body : State} (h : s.memoryCanonical) (w : Word) (vs : List Byte)
    (hc : body.config = s.config) (hm : body.mem = (s.writeBytes s.i.toNat vs).mem) :
    (s.guardRange w s.i.toNat vs.length body).memoryCanonical := by
  obtain ⟨hrange, heq⟩ | ⟨-, heq⟩ := s.guardRange_cases w s.i.toNat vs.length body
  · have hfits : s.i.toNat + vs.length ≤ memSize := by
      rw [memSize]
      omega
    rw [heq]
    exact (State.memoryCanonical_writeBytes h hfits).congr hc hm
  · rw [heq]
    exact h

theorem exec_keeps_memoryCanonical {i : Instr} {s t : State} (hs : s.memoryCanonical) (h : exec i s = .next t) :
    t.memoryCanonical := by
  have frame := exec_keepsBut h
  obtain hm | ⟨x, rfl | rfl⟩ := frame.mem
  · exact hs.congr frame.config hm
  · rw [exec_ldB] at h
    cases h
    exact State.memoryCanonical_guarded_store hs _ (bcdDigits (s.getV x)) rfl rfl
  · rw [exec_stRegs, ← s.regsUpTo_length x] at h
    cases h
    exact State.memoryCanonical_guarded_store hs _ (s.regsUpTo x) rfl rfl

/-- Settles O20: only two instructions write memory, each behind its range check, and the rest of a cycle writes none. -/
theorem stepKeepsMemoryCanonical : Obligations.StepKeepsMemoryCanonical := by
  refine fun s t => step_keeps (P := State.memoryCanonical) (fun _ _ h => h) ?unknown ?exec ?sample
  case unknown =>
    intro s w _ _ _ h
    obtain ⟨_, _, _, heq⟩ := s.exists_handleUnknown_eq w
    exact heq ▸ h
  case exec => exact fun s t _ _ _ _ h hs => exec_keeps_memoryCanonical hs h
  case sample => exact fun s h => s.sampleInputs_spec ▸ h

/-! ### Return addresses in range (R30) -/

theorem State.stackInRange.congr {s t : State} (h : s.stackInRange) (hstack : t.stack = s.stack) (hsp : t.sp = s.sp) :
    t.stackInRange := by
  rwa [State.stackInRange, hstack, hsp]

theorem State.stackInRange.pop {s : State} (h : s.stackInRange) : s.pop.stackInRange := by
  intro k hk
  rw [State.sp_pop] at hk
  exact h k (Nat.lt_of_lt_of_le hk (Nat.sub_le _ _))

theorem nextPc_toNat {pc : Addr} (h : pc.toNat ≤ 0xFFE) : (nextPc pc).toNat = pc.toNat + 2 := by
  unfold nextPc
  bv_omega

/-- The entry pushed lies past the two bytes of a call that was fetched. -/
theorem State.stackInRange.push {s : State} (h : s.stackInRange) (hpc : s.pc.toNat ≤ 0xFFE) (hsp : s.sp.val < 16) :
    (s.push (nextPc s.pc) hsp).stackInRange := by
  intro k hk
  rw [State.sp_push] at hk
  rw [State.stack_push, Fin.getElem_fin, Vector.getElem_set]
  split
  · rw [nextPc_toNat hpc]
    omega
  · exact h k (by simp only at hk; omega)

theorem exec_keeps_stackInRange {i : Instr} {s t : State} (hs : s.stackInRange) (hpc : s.pc.toNat ≤ 0xFFE)
    (h : exec i s = .next t) : t.stackInRange := by
  have frame := exec_keepsBut h
  have hcall : ∀ nnn, i = .call nnn → t.stackInRange := by
    rintro nnn rfl
    rw [exec_call] at h
    cases h
    split
    case isTrue hsp => exact (hs.push hpc hsp).congr rfl rfl
    case isFalse => exact hs
  obtain hstack | ⟨nnn, hi⟩ := frame.stack
  · obtain hsp | rfl | ⟨nnn, hi⟩ := frame.sp
    · exact hs.congr hstack hsp
    · rw [exec_ret] at h
      cases h
      split
      · exact hs
      · exact hs.pop.congr rfl rfl
    · exact hcall nnn hi
  · exact hcall nnn hi

/-- Settles O21: 00EE only lowers SP, and what 2NNN pushes is 2 above a pc that was fetched from. -/
theorem stepKeepsStackEntriesInRange : Obligations.StepKeepsStackEntriesInRange := by
  refine fun s t => step_keeps (P := State.stackInRange) (fun _ _ h => h) ?unknown ?exec ?sample
  case unknown =>
    intro s w _ _ _ h
    obtain ⟨_, _, _, heq⟩ := s.exists_handleUnknown_eq w
    exact heq ▸ h
  case exec => exact fun s t _ _ hw _ h hs => exec_keeps_stackInRange hs (State.fetch_word hw).left h
  case sample => exact fun s h => s.sampleInputs_spec ▸ h

/-! ### A wait stands at its FX0A (R34, R254) -/

theorem State.waitsAtFX0A.congr {s t : State} (h : s.waitsAtFX0A) (hkwait : t.kwait = s.kwait) (hc : t.config = s.config)
    (hm : t.mem = s.mem) (hpc : t.pc = s.pc) : t.waitsAtFX0A := by
  rwa [State.waitsAtFX0A, hkwait, hc, State.fetch_congr hc hm hpc]

/-- Without a set latch there is nothing to show. -/
theorem State.waitsAtFX0A_of_not_waiting {s : State} (h : s.kwait = false) : s.waitsAtFX0A :=
  fun hw => absurd (h.symm.trans hw) Bool.false_ne_true

/-- Any word fetched that is not an FX0A shows that no wait is on. -/
theorem State.waitsAtFX0A.not_waiting {s : State} {w : Word} (h : s.waitsAtFX0A) (hw : s.fetch = .word w)
    (hne : ∀ x, decodeWord w ≠ .ok (.ldVxK x)) : s.kwait = false := by
  by_contra hwait
  obtain ⟨-, w', x, hw', hx⟩ := h (Bool.eq_true_of_not_eq_false hwait)
  exact hne x (Fetched.word.inj (hw.symm.trans hw') ▸ hx)

/-- A waiting FX0A either stays where it is, or ends the wait. -/
theorem State.waitKey_cases (s : State) (x : Reg) :
    (∃ d, s.waitKey x = s.setWait true d) ∨ (s.waitKey x).kwait = false := by
  unfold State.waitKey
  split
  · split
    · exact .inl ⟨_, rfl⟩
    · exact .inr rfl
  · exact .inl ⟨_, rfl⟩

theorem exec_ldVxK_nop (x : Reg) {s : State} (h : s.config.fx0a = .nop) : exec (.ldVxK x) s = .next s.advance := by
  simp only [exec, execLdVxK, h]

theorem exec_ldVxK_block (x : Reg) {s : State} (h : s.config.fx0a = .block) : exec (.ldVxK x) s = .next (s.waitKey x) := by
  simp only [exec, execLdVxK, h]

theorem exec_ldVxK_keeps_waitsAtFX0A {s t : State} {w : Word} {x : Reg} (hs : s.waitsAtFX0A) (hw : s.fetch = .word w)
    (hi : decodeWord w = .ok (.ldVxK x)) (h : exec (.ldVxK x) s = .next t) : t.waitsAtFX0A := by
  cases hmode : s.config.fx0a with
  | nop =>
    rw [exec_ldVxK_nop x hmode] at h
    cases h
    intro hwait
    obtain ⟨hblock, -⟩ := hs hwait
    exact absurd (hmode.symm.trans hblock) Fx0aMode.noConfusion
  | block =>
    rw [exec_ldVxK_block x hmode] at h
    cases h
    obtain ⟨d, heq⟩ | hend := s.waitKey_cases x
    · exact heq ▸ fun _ => ⟨hmode, w, x, hw, hi⟩
    · exact State.waitsAtFX0A_of_not_waiting hend

/-- Settles O22: a set latch means that the word fetched is the FX0A, which leaves pc and memory while it waits. -/
theorem stepKeepsTheWaitAtItsFX0A : Obligations.StepKeepsTheWaitAtItsFX0A := by
  refine fun s t => step_keeps (P := State.waitsAtFX0A) ?raise ?unknown ?exec ?sample
  case raise => exact fun s e h => h.congr rfl rfl rfl rfl
  case unknown =>
    intro s w e hw he h
    have hkwait := h.not_waiting hw fun x hx => nomatch he.symm.trans hx
    obtain ⟨_, _, _, heq⟩ := s.exists_handleUnknown_eq w
    exact State.waitsAtFX0A_of_not_waiting (heq ▸ hkwait)
  case exec =>
    intro s t w i hw hi h hs
    by_cases hx : ∃ x, i = .ldVxK x
    · obtain ⟨x, rfl⟩ := hx
      exact exec_ldVxK_keeps_waitsAtFX0A hs hw hi h
    · obtain ⟨hkwait, -⟩ := (exec_keepsBut h).wait.resolve_right hx
      have hoff := hs.not_waiting hw fun x hd => hx ⟨x, Except.ok.inj (hi.symm.trans hd)⟩
      exact State.waitsAtFX0A_of_not_waiting (hkwait.trans hoff)
  case sample => exact fun s h => s.sampleInputs_spec ▸ h.congr rfl rfl rfl rfl

end Sys2Proof.Machine
end

section
/-! The cycle: progress, stops, unknown words, fatal errors, the sync and the inputs (R103 to R114, R270 to R275). -/

namespace Sys2Proof.Machine

/-! ### Progress and stops (R111) -/

theorem step_of_halted {s : State} {r : HaltReason} (h : s.status = .halted r) : step s = .fault (.halted r) := by
  rw [step, cycle, h]

theorem step_of_faulted {s : State} {e : FatalError} (h : s.status = .faulted e) : step s = .fault (.faulted e) := by
  rw [step, cycle, h]

/-- A running engine always takes a step (R104). -/
theorem exists_step_of_running {s : State} (h : s.status = .running) : ∃ t, step s = .next t := by
  by_cases hp : s.pc.toNat > 0xFFE
  · exact ⟨_, step_of_outside h hp⟩
  · have hw := State.fetch_inside (s := s) (by omega)
    cases hd : decodeWord (wordOfBytes (s.readByte s.pc.toNat) (s.readByte (s.pc.toNat + 1))) with
    | ok i =>
      obtain ⟨t, ht⟩ := exec_next i s
      rw [step_of_decoded h hw hd, ht]
      exact ⟨_, rfl⟩
    | error e => exact ⟨_, step_of_unknown h hw hd⟩

theorem step_not_refused (s : State) (r : Refusal) : step s ≠ .refused r := by
  cases hs : s.status with
  | running =>
    obtain ⟨t, ht⟩ := exists_step_of_running hs
    simp [ht]
  | halted => simp [step_of_halted hs]
  | faulted => simp [step_of_faulted hs]

/-- Settles O9: a step answers a next state whatever a running engine finds at pc, and a stopped one has only its reason. -/
theorem stepStopsExactlyWhenTheEngineHasStopped : Obligations.StepStopsExactlyWhenTheEngineHasStopped := by
  intro s
  exact ⟨⟨exists_step_of_running, fun ⟨_, ht⟩ => (step_cases ht).left⟩, fun _ => step_of_halted, fun _ => step_of_faulted,
    step_not_refused s⟩

/-! ### The single cases of a cycle -/

theorem decodeWord_of_decodeBytes {hi lo : Byte} {i : Instr} {rest : List Byte}
    (h : decodeBytes [hi, lo] = .ok (i, rest)) : decodeWord (wordOfBytes hi lo) = .ok i := by
  simp only [decodeBytes] at h
  split at h <;> cases h
  assumption

/-- Settles O7: the two bytes are the word fetched, and the end of the cycle is that of the state `exec` answers. -/
theorem stepRunsTheDecodedInstruction : Obligations.StepRunsTheDecodedInstruction := by
  intro s i hs hpc hbytes
  obtain ⟨t, ht⟩ := exec_next i s
  have hstep := step_of_decoded hs (State.fetch_inside hpc) (decodeWord_of_decodeBytes hbytes)
  rw [ht, finish] at hstep
  refine ⟨t, ht, fun hrun => ?_, fun hstop => ?_⟩
  · rw [hstep, State.endCycle_running hrun]
  · rw [hstep, State.endCycle_stopped hstop]

/-- Settles O8: a pc above 0xFFE is 0xFFF, whose second byte is the illegal one, or is itself illegal. -/
theorem fetchOutsideMemoryRaises : Obligations.FetchOutsideMemoryRaises := by
  intro s hs hpc
  have haddr : max s.pc.toNat 0x1000 = if s.pc.toNat = 0xFFF then 0x1000 else s.pc.toNat := by
    split <;> omega
  rw [step_of_outside hs hpc, haddr]
  rfl

/-- Settles O10: the instruction writes the status, and a stopped status ends the cycle there. -/
theorem haltSentinelStopsTheEngine : Obligations.HaltSentinelStopsTheEngine := by
  intro s
  exact ⟨exec_halt s, fun hs hw => step_of_fetch_zero hs hw⟩

/-- Settles O11: an unknown word goes to the handler, which under `nop` leaves the engine running. -/
theorem unknownWordFollowsThePolicy : Obligations.UnknownWordFollowsThePolicy := by
  intro s w hs hw hunknown
  obtain ⟨e, he⟩ := (decodeRejectsExactlyTheUnknownWords w).mpr hunknown
  rw [step_of_unknown hs hw he]
  refine ⟨fun hpolicy => ?_, fun hpolicy => ?_⟩
  · have hrun : (s.handleUnknown w).status = .running := by rw [State.handleUnknown_nop hpolicy]; exact hs
    rw [State.endCycle_running hrun, State.handleUnknown_nop hpolicy]
    rfl
  · rw [State.handleUnknown_fatal hpolicy]
    exact congrArg _ (State.endCycle_stopped Status.noConfusion)

/-! ### Fatal errors (R270 to R275) -/

theorem State.status_sampleInputs (s : State) : s.sampleInputs.status =
    if 1 ≤ s.cycleInput.ticks ∧ s.cycleInput.quitIn = true then .halted .quit else s.status := by
  rw [State.sampleInputs_spec]

/-- Steps (c) to (e) raise nothing, so an engine that has faulted after the cycle had faulted before them. -/
theorem State.endCycle_of_faulted {s : State} {e : FatalError} (h : s.endCycle.status = .faulted e) :
    s.status = .faulted e ∧ s.endCycle = s := by
  by_cases hrun : s.status = .running
  · rw [State.endCycle_running hrun, State.status_sampleInputs, hrun] at h
    split at h <;> cases h
  · have hsame := State.endCycle_stopped hrun
    exact ⟨hsame ▸ h, hsame⟩

theorem State.handleUnknown_of_faulted {s : State} {w : Word} {e : FatalError} (hs : s.status = .running)
    (h : (s.handleUnknown w).status = .faulted e) : s.config.unknownOpcode = .fatal ∧ e = .unknownOpcode s.pc w := by
  cases hpolicy : s.config.unknownOpcode with
  | nop =>
    rw [State.handleUnknown_nop hpolicy] at h
    exact nomatch hs.symm.trans h
  | fatal =>
    rw [State.handleUnknown_fatal hpolicy] at h
    exact ⟨rfl, (Status.faulted.inj h).symm⟩

theorem exec_of_faulted {i : Instr} {s t : State} {e : FatalError} (hs : s.status = .running) (h : exec i s = .next t)
    (ht : t.status = .faulted e) : s.raises i e ∧ t = s.raise e := by
  cases exec_outcome h with
  | completes hkeep => exact nomatch (hs.symm.trans hkeep.symm).trans ht
  | halts _ heq => exact nomatch (congrArg State.status heq).symm.trans ht
  | raises e' hi heq =>
    have he : e' = e := Status.faulted.inj ((congrArg State.status heq).symm.trans ht)
    exact he ▸ ⟨hi, heq⟩

/-- Everything a step that ends Faulted can have done: fetch, an instruction or an unknown word raised, and nothing else
happened. -/
theorem step_of_faults {s t : State} {e : FatalError} (h : step s = .next t) (ht : t.status = .faulted e) :
    t = s.raise e ∧
    ((s.pc.toNat > 0xFFE ∧ e = .outOfBounds s.pc none (max s.pc.toNat 0x1000)) ∨
     ∃ w, s.fetch = .word w ∧
      ((∃ i, decodeWord w = .ok i ∧ s.raises i e) ∨
       ((∃ d, decodeWord w = .error d) ∧ s.config.unknownOpcode = .fatal ∧ e = .unknownOpcode s.pc w))) := by
  obtain ⟨hs, ⟨hpc, rfl⟩ | ⟨w, hw, ⟨i, u, hi, hu, rfl⟩ | ⟨d, hd, rfl⟩⟩⟩ := step_cases h
  · cases ht
    exact ⟨rfl, .inl ⟨hpc, rfl⟩⟩
  · obtain ⟨hfault, hsame⟩ := State.endCycle_of_faulted ht
    obtain ⟨hraises, heq⟩ := exec_of_faulted hs hu hfault
    exact ⟨hsame.trans heq, .inr ⟨w, hw, .inl ⟨i, hi, hraises⟩⟩⟩
  · obtain ⟨hfault, hsame⟩ := State.endCycle_of_faulted ht
    obtain ⟨hpolicy, he⟩ := State.handleUnknown_of_faulted hs hfault
    refine ⟨?_, .inr ⟨w, hw, .inr ⟨⟨d, hd⟩, hpolicy, he⟩⟩⟩
    rw [hsame, State.handleUnknown_fatal hpolicy, he]

/-- Settles O12: whatever raised, it did nothing but raise. -/
theorem fatalStopDiscardsTheCycle : Obligations.FatalStopDiscardsTheCycle :=
  fun _ _ _ h ht => (step_of_faults h ht).left

/-- The word of an instruction that can raise has no bits that decode ignores, so it is the word fetched. -/
theorem State.encode_of_raises {s : State} {w : Word} {i : Instr} {e : FatalError} (hi : decodeWord w = .ok i)
    (h : s.raises i e) : encode i = w := by
  cases i with
  | ret => exact encode_of_decodeWord hi (by decide) (by decide)
  | call | drw | ldB | stRegs | ldRegs => exact encode_of_decodeWord hi (by simp [encode]) (by simp [encode])
  | _ => exact h.elim

/-- Settles O13: each instruction that can raise does so with its own word, which is the word fetched. -/
theorem onlyTheListedErrorsAreRaised : Obligations.OnlyTheListedErrorsAreRaised := by
  intro s t e h ht
  obtain ⟨-, houtside | ⟨w, hw, ⟨i, hi, hraises⟩ | ⟨hd, hpolicy, he⟩⟩⟩ := step_of_faults h ht
  · exact .inl houtside
  · refine .inr ⟨w, hw, ?_⟩
    obtain rfl : encode i = w := State.encode_of_raises hi hraises
    cases i with
    | ret => exact .inr (.inl ⟨hi, hraises⟩)
    | call nnn => exact .inl ⟨nnn, hi, hraises⟩
    | drw x y n =>
      obtain ⟨hn, hrange, he⟩ := hraises
      exact .inr (.inr (.inl ⟨⟨x, y, n, hi, hn, hrange⟩, he⟩))
    | ldB x =>
      obtain ⟨hrange, he⟩ := hraises
      exact .inr (.inr (.inr (.inl ⟨⟨x, hi, hrange⟩, he⟩)))
    | stRegs x =>
      obtain ⟨hrange, he⟩ := hraises
      exact .inr (.inr (.inr (.inr (.inl ⟨⟨x, .inl hi, hrange⟩, he⟩))))
    | ldRegs x =>
      obtain ⟨hrange, he⟩ := hraises
      exact .inr (.inr (.inr (.inr (.inl ⟨⟨x, .inr hi, hrange⟩, he⟩))))
    | _ => exact hraises.elim
  · have hunknown := (decodeRejectsExactlyTheUnknownWords w).mp hd
    exact .inr ⟨w, hw, .inr (.inr (.inr (.inr (.inr ⟨hunknown, hpolicy, he⟩))))⟩

/-! ### The end of a completed cycle (R104 step (e), R109, R110) -/

theorem State.key_handleUnknown (s : State) (w : Word) : (s.handleUnknown w).key = s.key := by
  obtain ⟨_, _, _, heq⟩ := s.exists_handleUnknown_eq w
  rw [heq]

theorem State.fbOut_handleUnknown (s : State) (w : Word) : (s.handleUnknown w).fbOut = s.fbOut := by
  obtain ⟨_, _, _, heq⟩ := s.exists_handleUnknown_eq w
  rw [heq]

/-- Steps (a) and (b) neither load the keys nor show the framebuffer. -/
theorem State.executesTo.key_and_fbOut {s t : State} (h : s.executesTo t) : t.key = s.key ∧ t.fbOut = s.fbOut := by
  obtain ⟨-, w, -, ⟨i, -, hexec⟩ | ⟨-, rfl⟩⟩ := h
  · exact ⟨(exec_keepsBut hexec).key, (exec_keepsBut hexec).fbOut⟩
  · exact ⟨s.key_handleUnknown w, s.fbOut_handleUnknown w⟩

/-- Settles O15: the cycle ends with steps (c) to (e) of the state after the instruction, which had taken no input. -/
theorem syncHappensExactlyAtATick : Obligations.SyncHappensExactlyAtATick := by
  intro s t h
  obtain ⟨hin, hno⟩ := h.left.keepsInputs
  obtain ⟨hkey, hfbOut⟩ := h.left.key_and_fbOut
  have hrun : t.status = .running := h.right
  refine ⟨_, step_of_completesWith h, ?_⟩
  rw [State.sampleInputs_spec, State.cycleInput_congr hin hno, hin, hno]
  refine ⟨rfl, fun hticks => ?_, fun hticks => ?_⟩
  · simp [hticks, hfbOut, hkey, hrun]
  · simp [hticks, hrun]

end Sys2Proof.Machine
end

section
/-! What an instruction does not read (R28, R29, R103): the inputs to come, the outputs, ST and the stale stack entries. -/

namespace Sys2Proof.Machine

/-! ### State that an instruction leaves alone can be replaced before it or after it -/

/-- The fields that no instruction reads or writes, but for the bytes that CXKK draws and the ST that FX18 writes. -/
structure Unread where
  st      : Byte
  fbOut   : Framebuffer
  events  : List Event
  inputs  : List CycleInput
  inputNo : Nat
  rands   : List Byte
  randNo  : Nat

/-- Those fields replaced by what `f` makes of them, and the stack by what `g` makes of it. -/
def State.mapUnread (g : Vector Addr 16 → Vector Addr 16) (f : Unread → Unread) (s : State) : State :=
  let u := f ⟨s.st, s.fbOut, s.events, s.inputs, s.inputNo, s.rands, s.randNo⟩
  { s with stack := g s.stack, st := u.st, fbOut := u.fbOut, events := u.events, inputs := u.inputs,
           inputNo := u.inputNo, rands := u.rands, randNo := u.randNo }

section

variable (g : Vector Addr 16 → Vector Addr 16) (f : Unread → Unread) (s : State)

theorem State.guardRange_mapUnread (w : Word) (base n : Nat) {body body' : State} (hbody : body' = body.mapUnread g f) :
    (s.mapUnread g f).guardRange w base n body' = (s.guardRange w base n body).mapUnread g f := by
  rw [hbody]
  unfold State.guardRange
  split <;> rfl

theorem State.logicResult_mapUnread (x : Reg) (b : Byte) :
    (s.mapUnread g f).logicResult x b = (s.logicResult x b).mapUnread g f := by
  have hconfig : (s.mapUnread g f).config = s.config := rfl
  rw [State.logicResult, State.logicResult, hconfig]
  split <;> rfl

theorem State.waitKey_mapUnread (x : Reg) : (s.mapUnread g f).waitKey x = (s.waitKey x).mapUnread g f := by
  have hkwait : (s.mapUnread g f).kwait = s.kwait := rfl
  have hkey : (s.mapUnread g f).key = s.key := rfl
  have hkprev : (s.mapUnread g f).kprev = s.kprev := rfl
  rw [State.waitKey, State.waitKey, hkwait, hkey, hkprev]
  split
  · split <;> rfl
  · rfl

theorem State.loadRegs_mapUnread (n : Nat) (h : Nat → Byte) :
    (s.mapUnread g f).loadRegs n h = (s.loadRegs n h).mapUnread g f := by
  simp only [State.loadRegs, State.mapUnread]

theorem State.advance_setI_mapUnread (a : Addr) :
    ((s.mapUnread g f).setI a).advance = (s.setI a).advance.mapUnread g f := rfl

/-- 00EE and 2NNN use the stack, so they are left out unless it stays as it is. -/
theorem exec_mapUnread (i : Instr) (hst : ∀ x, i ≠ .ldSTVx x) (hrnd : ∀ x kk, i ≠ .rnd x kk)
    (hstack : g = id ∨ (i ≠ .ret ∧ ∀ nnn, i ≠ .call nnn)) :
    ∃ t, exec i s = .next t ∧ exec i (s.mapUnread g f) = .next (t.mapUnread g f) := by
  cases i with
  | ldSTVx x => exact absurd rfl (hst x)
  | rnd x kk => exact absurd rfl (hrnd x kk)
  | ret =>
    obtain rfl | ⟨hne, -⟩ := hstack
    · refine ⟨_, exec_ret s, (exec_ret _).trans (congrArg _ ?_)⟩
      by_cases h : s.sp.val = 0
      · rw [if_pos h]
        exact if_pos h
      · rw [if_neg h]
        exact if_neg h
    · exact absurd rfl hne
  | call nnn =>
    obtain rfl | ⟨-, hne⟩ := hstack
    · refine ⟨_, exec_call nnn s, (exec_call nnn _).trans (congrArg _ ?_)⟩
      by_cases h : s.sp.val < 16
      · rw [dif_pos h]
        exact dif_pos h
      · rw [dif_neg h]
        exact dif_neg h
    · exact absurd rfl (hne nnn)
  | orReg x y => exact ⟨_, rfl, congrArg _ (s.logicResult_mapUnread g f x _)⟩
  | andReg x y => exact ⟨_, rfl, congrArg _ (s.logicResult_mapUnread g f x _)⟩
  | xorReg x y => exact ⟨_, rfl, congrArg _ (s.logicResult_mapUnread g f x _)⟩
  | drw x y n =>
    refine ⟨_, exec_drw x y n s, (exec_drw x y n _).trans (congrArg _ ?_)⟩
    split
    · rfl
    · exact s.guardRange_mapUnread g f _ _ _ rfl
  | ldVxK x =>
    cases hmode : s.config.fx0a with
    | nop => exact ⟨_, exec_ldVxK_nop x hmode, exec_ldVxK_nop x hmode⟩
    | block =>
      have hmode' : (s.mapUnread g f).config.fx0a = .block := hmode
      rw [exec_ldVxK_block x hmode, exec_ldVxK_block x hmode', s.waitKey_mapUnread g f x]
      exact ⟨_, rfl, rfl⟩
  | addI x =>
    have hconfig : (s.mapUnread g f).config = s.config := rfl
    refine ⟨_, rfl, ?_⟩
    rw [exec, execAddI, hconfig]
    split <;> rfl
  | ldB x => exact ⟨_, exec_ldB x s, (exec_ldB x _).trans (congrArg _ (s.guardRange_mapUnread g f _ _ _ rfl))⟩
  | stRegs x => exact ⟨_, exec_stRegs x s, (exec_stRegs x _).trans (congrArg _ (s.guardRange_mapUnread g f _ _ _ rfl))⟩
  | ldRegs x =>
    refine ⟨_, exec_ldRegs x s, (exec_ldRegs x _).trans (congrArg _ (s.guardRange_mapUnread g f _ _ _ ?_))⟩
    rw [State.loadRegs_mapUnread]
    exact State.advance_setI_mapUnread g f _ _
  | _ => exact ⟨_, rfl, rfl⟩

end

theorem exec_mapUnread_eq {i : Instr} {s t : State} (h : exec i s = .next t) (g : Vector Addr 16 → Vector Addr 16)
    (f : Unread → Unread) (hst : ∀ x, i ≠ .ldSTVx x) (hrnd : ∀ x kk, i ≠ .rnd x kk)
    (hstack : g = id ∨ (i ≠ .ret ∧ ∀ nnn, i ≠ .call nnn)) : exec i (s.mapUnread g f) = .next (t.mapUnread g f) :=
  exec_next_elim (P := fun t => exec i (s.mapUnread g f) = .next (t.mapUnread g f))
    (exec_mapUnread g f s i hst hrnd hstack) h

theorem exec_rnd (x : Reg) (kk : Byte) (s : State) :
    exec (.rnd x kk) s = .next (s.takeRand.setV x (s.randIn &&& kk)).advance := rfl

theorem exec_ldSTVx (x : Reg) (s : State) : exec (.ldSTVx x) s = .next (s.setST (s.getV x)).advance := rfl

/-! ### The statements, each for its own part of the unread fields -/

/-- Settles O26: FX18 replaces ST, CXKK uses none of the three, and every other instruction leaves them alone. -/
theorem soundTimerAndOutputsAreNeverRead : Obligations.SoundTimerAndOutputsAreNeverRead := by
  intro i s t b fb es h
  cases i with
  | ldSTVx | rnd =>
    cases h
    rfl
  | _ =>
    exact exec_mapUnread_eq h id (fun u => { u with st := b, fbOut := fb, events := es }) (by simp) (by simp) (.inl rfl)

/-- The cycle inputs to come are used by no instruction, CXKK and FX18 included. -/
theorem exec_cycleInputs {i : Instr} {s t : State} (h : exec i s = .next t) (c : List CycleInput) (k : Nat) :
    exec i { s with inputs := c, inputNo := k } = .next { t with inputs := c, inputNo := k } := by
  cases i with
  | ldSTVx | rnd =>
    cases h
    rfl
  | _ => exact exec_mapUnread_eq h id (fun u => { u with inputs := c, inputNo := k }) (by simp) (by simp) (.inl rfl)

/-- The bytes to come are used by CXKK alone. -/
theorem exec_rands {i : Instr} {s t : State} (h : exec i s = .next t) (hrnd : ∀ x kk, i ≠ .rnd x kk) (b : List Byte)
    (k : Nat) : exec i { s with rands := b, randNo := k } = .next { t with rands := b, randNo := k } := by
  cases i with
  | ldSTVx =>
    cases h
    rfl
  | rnd x kk => exact absurd rfl (hrnd x kk)
  | _ => exact exec_mapUnread_eq h id (fun u => { u with rands := b, randNo := k }) (by simp) (by simp) (.inl rfl)

/-- No instruction halts by quit. -/
theorem exec_status_ne_quit {i : Instr} {s t : State} (hs : s.status = .running) (h : exec i s = .next t) :
    t.status ≠ .halted .quit := by
  intro hquit
  cases exec_outcome h with
  | completes hkeep => exact nomatch (hs.symm.trans hkeep.symm).trans hquit
  | halts _ heq => exact nomatch (congrArg State.status heq).symm.trans hquit
  | raises _ _ heq => exact nomatch (congrArg State.status heq).symm.trans hquit

theorem State.handleUnknown_status_ne_quit {s : State} (hs : s.status = .running) (w : Word) :
    (s.handleUnknown w).status ≠ .halted .quit := by
  intro hquit
  cases hpolicy : s.config.unknownOpcode with
  | nop =>
    rw [State.handleUnknown_nop hpolicy] at hquit
    exact nomatch hs.symm.trans hquit
  | fatal =>
    rw [State.handleUnknown_fatal hpolicy] at hquit
    exact nomatch hquit

/-- The end of a cycle changes the keys and halts by quit only at a tick, by the inputs of that cycle. -/
theorem State.endCycle_key_and_quit {s u : State} (hkey : u.key = s.key) (hin : u.cycleInput = s.cycleInput)
    (hquit : u.status ≠ .halted .quit) :
    (u.endCycle.key = s.key ∨ (1 ≤ s.cycleInput.ticks ∧ u.endCycle.key = s.cycleInput.keysIn)) ∧
    (u.endCycle.status = .halted .quit → 1 ≤ s.cycleInput.ticks ∧ s.cycleInput.quitIn = true) := by
  by_cases hrun : u.status = .running
  · rw [State.endCycle_running hrun, State.sampleInputs_spec, hin, hkey]
    refine ⟨?_, fun h => ?_⟩
    · by_cases hticks : 1 ≤ s.cycleInput.ticks
      · exact .inr ⟨hticks, if_pos hticks⟩
      · exact .inl (if_neg hticks)
    · by_contra hno
      exact hquit ((if_neg hno).symm.trans h)
  · rw [State.endCycle_stopped hrun]
    exact ⟨.inl hkey, fun h => absurd h hquit⟩

theorem step_key_and_quit {s t : State} (h : step s = .next t) :
    (t.key = s.key ∨ (1 ≤ s.cycleInput.ticks ∧ t.key = s.cycleInput.keysIn)) ∧
    (t.status = .halted .quit → 1 ≤ s.cycleInput.ticks ∧ s.cycleInput.quitIn = true) := by
  obtain ⟨hs, ⟨-, rfl⟩ | ⟨w, -, ⟨i, u, -, hu, rfl⟩ | ⟨e, -, rfl⟩⟩⟩ := step_cases h
  · exact ⟨.inl rfl, fun hquit => nomatch hquit⟩
  · exact State.endCycle_key_and_quit (exec_keepsBut hu).key (exec_keepsInputs hu).cycleInput_eq (exec_status_ne_quit hs hu)
  · exact State.endCycle_key_and_quit (s.key_handleUnknown w) (s.keepsInputs_handleUnknown w).cycleInput_eq
      (State.handleUnknown_status_ne_quit hs w)

/-- Settles O16: no instruction uses the cycle inputs, none but CXKK the bytes, and the keys come in at a tick. -/
theorem inputsActOnlyAtTheirSamplingPoints : Obligations.InputsActOnlyAtTheirSamplingPoints := by
  refine ⟨fun i s t c k h => ?_, fun i s t b k h hrnd => ?_, fun s t => step_key_and_quit⟩
  · have frame := exec_keepsBut h
    exact ⟨frame.key, frame.inputs, frame.inputNo, exec_cycleInputs h c k⟩
  · obtain ⟨hrands, hno⟩ := (exec_keepsBut h).rands.resolve_right fun ⟨x, kk, hi⟩ => hrnd x kk hi
    exact ⟨hrands, hno, exec_rands h hrnd b k⟩

/-! ### Stale stack entries (R29) -/

/-- A call writes the entry that it makes live, so the live entries still agree. -/
theorem exec_call_stale (nnn : Addr12) {s t : State} {stk : Vector Addr 16}
    (hlive : ∀ k : Fin 16, k.val < s.sp.val → stk[k] = s.stack[k]) (h : exec (.call nnn) s = .next t) :
    ∃ stk' : Vector Addr 16, exec (.call nnn) { s with stack := stk } = .next { t with stack := stk' } ∧
      ∀ k : Fin 16, k.val < t.sp.val → stk'[k] = t.stack[k] := by
  rw [exec_call] at h
  cases h
  by_cases hsp : s.sp.val < 16
  · refine ⟨stk.set s.sp.val (nextPc s.pc) hsp, ?_, fun k hk => ?_⟩
    · rw [exec_call, dif_pos hsp, dif_pos hsp]
      rfl
    · rw [dif_pos hsp] at hk ⊢
      simp only [State.sp_goto, State.sp_push] at hk
      simp only [State.stack_goto, State.stack_push, Fin.getElem_fin, Vector.getElem_set]
      split
      · rfl
      · exact hlive k (by omega)
  · refine ⟨stk, ?_, fun k hk => ?_⟩
    · rw [exec_call, dif_neg hsp, dif_neg hsp]
      rfl
    · rw [dif_neg hsp] at hk ⊢
      exact hlive k hk

/-- A return reads the entry below SP, which is live. -/
theorem exec_ret_stale {s t : State} {stk : Vector Addr 16}
    (hlive : ∀ k : Fin 16, k.val < s.sp.val → stk[k] = s.stack[k]) (h : exec .ret s = .next t) :
    exec .ret { s with stack := stk } = .next { t with stack := stk } ∧
      ∀ k : Fin 16, k.val < t.sp.val → stk[k] = t.stack[k] := by
  rw [exec_ret] at h
  cases h
  by_cases hsp : s.sp.val = 0
  · rw [exec_ret, if_pos hsp, if_pos hsp]
    exact ⟨rfl, hlive⟩
  · have htop : State.top { s with stack := stk } = s.top :=
      hlive ⟨s.sp.val - 1, by omega⟩ (Nat.sub_lt (Nat.pos_of_ne_zero hsp) Nat.one_pos)
    rw [exec_ret, if_neg hsp, if_neg hsp, htop]
    exact ⟨rfl, fun k hk => hlive k (Nat.lt_of_lt_of_le hk (Nat.sub_le _ _))⟩

/-- Settles O27: 00EE reads a live entry, 2NNN makes one live by writing it, and nothing else uses the stack. -/
theorem staleStackEntriesAreNeverRead : Obligations.StaleStackEntriesAreNeverRead := by
  intro i s t stk hlive h
  have hkeep : (i ≠ .ret ∧ ∀ nnn, i ≠ .call nnn) → ∀ k : Fin 16, k.val < t.sp.val → stk[k] = t.stack[k] := by
    rintro ⟨hret, hcall⟩
    have hcall' : ¬ ∃ nnn, i = .call nnn := fun ⟨nnn, hi⟩ => hcall nnn hi
    have frame := exec_keepsBut h
    rw [frame.sp.resolve_right (not_or.mpr ⟨hret, hcall'⟩), frame.stack.resolve_right hcall']
    exact hlive
  cases i with
  | call nnn => exact exec_call_stale nnn hlive h
  | ret => exact ⟨stk, exec_ret_stale hlive h⟩
  | ldSTVx | rnd =>
    refine ⟨stk, ?_, hkeep (by simp)⟩
    cases h
    rfl
  | _ => exact ⟨stk, exec_mapUnread_eq h (fun _ => stk) id (by simp) (by simp) (.inr (by simp)), hkeep (by simp)⟩

end Sys2Proof.Machine
end

section
/-! The values initialisation leaves, and the ROM it rejects (R39, R300, R303). -/

namespace Sys2Proof.Machine

theorem resetByte_of_lt (font : Font) {a : Nat} (h : a < 80) : resetByte font a = font[a] := dif_pos h

theorem State.init_of_not_fits (cfg : Config) {rom : List Byte} (h : rom.length > 3584) :
    State.init cfg rom = (initZeroed cfg).setStatus (.faulted (.oversizedROM rom.length)) :=
  if_neg fun hfits => Nat.not_le_of_lt h ((romFits_iff rom).mp hfits)

/-- An empty ROM places nothing. -/
theorem State.init_default_nil : State.init Config.default [] = State.reset := rfl

theorem State.readByte_init_below_rom (cfg : Config) {rom : List Byte} (h : rom.length ≤ 3584) {a : Nat} (ha : a < 0x200) :
    (State.init cfg rom).readByte a = resetByte cfg.font a := by
  rw [State.readByte_init_of_fits cfg h, if_neg (by omega)]

/-- Settles O18: initialisation writes memory from 0x200 on, pc and the status, and every other field is a literal zero. -/
theorem initialisationLeavesTheListedValues : Obligations.InitialisationLeavesTheListedValues := by
  refine ⟨State.init_default_nil, fun cfg rom hfits => ?_⟩
  have hinit := State.init_of_fits cfg hfits
  refine ⟨?config, fun r => ?v, ?i, ?pc, fun k => ?stack, ?sp, ?dt, ?st, fun r c => ?fb, ?key,
    State.status_init_of_fits cfg hfits, ?kwait, ?kprev, fun a ha => ?font, fun a hfont ha => ?zero⟩
  case font => rw [State.readByte_init_below_rom cfg hfits (by omega), resetByte_of_lt cfg.font ha]
  case zero => rw [State.readByte_init_below_rom cfg hfits ha, resetByte_of_ge cfg.font hfont]
  case v => rw [hinit]; exact Vector.getElem_replicate _
  case stack => rw [hinit]; exact Vector.getElem_replicate _
  case fb => rw [hinit]; exact Framebuffer.pixel_blank r c
  all_goals rw [hinit]; rfl

/-- Settles O19: the rejected ROM leaves memory as initialisation without a ROM does, and the engine Faulted. -/
theorem oversizedRomIsRejected : Obligations.OversizedRomIsRejected := by
  intro cfg rom hlong
  have hinit := State.init_of_not_fits cfg hlong
  have hstatus : (State.init cfg rom).status = .faulted (.oversizedROM rom.length) := by rw [hinit, State.status_setStatus]
  refine ⟨hstatus, fun a ha _ => ?_, step_of_faulted hstatus⟩
  rw [hinit, State.readByte_setStatus, readByte_initZeroed, resetByte_of_ge cfg.font ha]

/-! ### The invariants after initialisation -/

theorem memoryCanonical_initZeroed (cfg : Config) : (initZeroed cfg).memoryCanonical := rfl

/-- The ROM is placed within memory, since program memory ends where memory does. -/
theorem memoryCanonical_init (cfg : Config) (rom : List Byte) : (State.init cfg rom).memoryCanonical := by
  by_cases hfits : rom.length ≤ 3584
  · have hend : programBase + rom.length ≤ memSize := by
      rw [programBase, memSize]
      omega
    rw [State.init_of_fits cfg hfits]
    exact State.memoryCanonical_writeBytes (memoryCanonical_initZeroed cfg) hend
  · rw [State.init_of_not_fits cfg (Nat.lt_of_not_le hfits)]
    exact memoryCanonical_initZeroed cfg

/-- With or without the ROM, the stack is empty and no FX0A waits. -/
theorem sp_and_kwait_init (cfg : Config) (rom : List Byte) :
    (State.init cfg rom).sp = 0 ∧ (State.init cfg rom).kwait = false := by
  unfold State.init
  split <;> exact ⟨rfl, rfl⟩

theorem State.stackInRange_of_empty {s : State} (h : s.sp = 0) : s.stackInRange := by
  intro k hk
  rw [h] at hk
  exact absurd hk (Nat.not_lt_zero _)

theorem invariants_init (cfg : Config) (rom : List Byte) :
    (State.init cfg rom).memoryCanonical ∧ (State.init cfg rom).stackInRange ∧ (State.init cfg rom).waitsAtFX0A := by
  obtain ⟨hsp, hkwait⟩ := sp_and_kwait_init cfg rom
  exact ⟨memoryCanonical_init cfg rom, State.stackInRange_of_empty hsp, State.waitsAtFX0A_of_not_waiting hkwait⟩

/-- Settles O23: the stack is empty, no FX0A waits, and the ROM is one run of bytes inside memory. -/
theorem initialisationMeetsTheInvariants : Obligations.InitialisationMeetsTheInvariants :=
  ⟨State.init_default_nil ▸ invariants_init Config.default [], invariants_init⟩

end Sys2Proof.Machine
end

section
/-! Control flow: 00EE, 2NNN, 5XY0, 9XY0 and BNNN (R130, R132, R135 to R137). -/

namespace Sys2Proof.Machine

/-! ### 00EE and 2NNN -/

theorem exec_ret_of_empty {s : State} (h : s.sp = 0) : exec .ret s = .next (s.raise (.stackUnderflow s.pc 0x00EE)) := by
  have hzero : s.sp.val = 0 := congrArg Fin.val h
  rw [exec_ret, if_pos hzero]
  rfl

theorem exec_ret_of_nonempty {s : State} (h : 0 < s.sp.val) : exec .ret s = .next (s.pop.goto s.top) := by
  rw [exec_ret, if_neg (by omega)]

theorem State.top_eq (s : State) (k : Fin 16) (h : s.sp.val = k.val + 1) : s.top = s.stack[k] := by
  simp only [State.top, h, Nat.add_sub_cancel, Fin.getElem_fin]

theorem exec_call_of_room (nnn : Addr12) {s : State} (h : s.sp.val < 16) :
    exec (.call nnn) s = .next ((s.push (nextPc s.pc) h).goto (zextAddr nnn)) := by
  rw [exec_call, dif_pos h]

theorem exec_call_of_full (nnn : Addr12) {s : State} (h : s.sp = 16) :
    exec (.call nnn) s = .next (s.raise (.stackOverflow s.pc (encode (.call nnn)))) := by
  rw [exec_call, dif_neg (by rw [h]; decide)]

/-- Settles O28: the top entry is the one below SP, and SP = 0 is the one depth without it. -/
theorem retPopsTheReturnAddress : Obligations.RetPopsTheReturnAddress := by
  refine fun s => ⟨fun k hk => ?_, exec_ret_of_empty⟩
  refine ⟨_, exec_ret_of_nonempty (by omega), ?_, ?_⟩
  · rw [s.top_eq k hk]
    rfl
  · rw [State.sp_goto, State.sp_pop]
    exact Nat.sub_eq_of_eq_add hk

/-- Settles O59: the return leaves the engine running, and steps (c) to (e) leave pc and the stack. -/
theorem retCompletesOnANonEmptyStack : Obligations.RetCompletesOnANonEmptyStack := by
  intro s hsp
  have hret := exec_ret_of_nonempty hsp
  refine ⟨_, hret, rfl, Nat.sub_add_cancel hsp, fun k hk => s.top_eq k hk.symm, fun hs hw => ?_⟩
  have hdecode : decodeWord 0x00EE = .ok .ret := rfl
  have hstep := step_of_executed hs hw hdecode hret hs
  rw [State.sampleInputs_spec] at hstep
  exact ⟨_, hstep, rfl, rfl, rfl⟩

/-- Settles O30: with room the entry at SP becomes the address of the next word, with none the call raises. -/
theorem callPushesTheReturnAddress : Obligations.CallPushesTheReturnAddress := by
  refine fun nnn s => ⟨fun k hk => ?room, fun hfull => ⟨_, decodeWord_encode (.call nnn), exec_call_of_full nnn hfull⟩⟩
  have hroom : s.sp.val < 16 := by omega
  refine ⟨_, exec_call_of_room nnn hroom, rfl, zextAddr_toNat nnn, congrArg (· + 1) hk, ?top, fun j hj => ?rest⟩
  case top =>
    simp only [State.stack_goto, State.stack_push, Fin.getElem_fin, hk, Vector.getElem_set_self]
    exact BitVec.toNat_add _ _
  case rest =>
    have hne : s.sp.val ≠ j.val := fun h => hj (Fin.ext (h.symm.trans hk))
    simp only [State.stack_goto, State.stack_push, Fin.getElem_fin]
    exact Vector.getElem_set_ne _ _ hne

/-- A pop after a push finds the address pushed. -/
theorem State.top_push (s : State) (a : Addr) (h : s.sp.val < 16) : (s.push a h).top = a :=
  ((s.push a h).top_eq ⟨s.sp.val, h⟩ rfl).trans (Vector.getElem_set_self _)

/-- Settles O31: the return pops what the call pushed. -/
theorem returnAfterCallComesBack : Obligations.ReturnAfterCallComesBack := by
  intro nnn s hroom
  have hpos : 0 < ((s.push (nextPc s.pc) hroom).goto (zextAddr nnn)).sp.val := Nat.succ_pos _
  refine ⟨_, _, exec_call_of_room nnn hroom, exec_ret_of_nonempty hpos, ?_, fun k hk => ?_⟩
  · have htop : ((s.push (nextPc s.pc) hroom).goto (zextAddr nnn)).top = s.pc + 2 := s.top_push (nextPc s.pc) hroom
    rw [htop]
    rfl
  · exact Vector.getElem_set_ne hroom k.isLt (Ne.symm hk)

/-! ### The register skips and the indexed jump -/

theorem exec_seReg (x y : Reg) (s : State) : exec (.seReg x y) s = .next (s.skipIf (s.getV x == s.getV y)) := rfl

theorem exec_sneReg (x y : Reg) (s : State) : exec (.sneReg x y) s = .next (s.skipIf (s.getV x != s.getV y)) := rfl

theorem decodeWord_wordFXYN_5 (x y : Reg) (n : Fin 16) : decodeWord (wordFXYN 0x5 x y n) = .ok (.seReg x y) := by
  rw [decodeWord_family5 (fieldF_wordFXYN 0x5 x y n), fieldX_wordFXYN, fieldY_wordFXYN]

theorem decodeWord_wordFXYN_9 (x y : Reg) (n : Fin 16) : decodeWord (wordFXYN 0x9 x y n) = .ok (.sneReg x y) := by
  rw [decodeWord_family9 (fieldF_wordFXYN 0x9 x y n), fieldX_wordFXYN, fieldY_wordFXYN]

/-- Settles O33: families 5 and 9 read only `X` and `Y`, and each test is a skip on the registers being equal or not. -/
theorem registerSkipsCompareTwoRegisters : Obligations.RegisterSkipsCompareTwoRegisters := by
  intro x y s
  rw [exec_seReg, exec_sneReg]
  refine ⟨fun n => ⟨decodeWord_wordFXYN_5 x y n, decodeWord_wordFXYN_9 x y n⟩, fun heq => ?_, fun hne => ?_⟩
  · rw [beq_iff_eq.mpr heq, bne_eq_false_iff_eq.mpr heq, State.skipIf_true, State.skipIf_false]
    exact ⟨rfl, rfl⟩
  · rw [beq_eq_false_iff_ne.mpr hne, bne_iff_ne.mpr hne, State.skipIf_true, State.skipIf_false]
    exact ⟨rfl, rfl⟩

theorem exec_jpV0 (nnn : Addr12) (s : State) : exec (.jpV0 nnn) s = .next (s.goto (indexedTarget nnn (s.getV 0))) := rfl

/-- A 12-bit and an 8-bit number: the sum does not reach 2^16. -/
theorem indexedTarget_toNat (nnn : Addr12) (b : Byte) : (indexedTarget nnn b).toNat = nnn.toNat + b.toNat := by
  rw [indexedTarget, BitVec.toNat_add, zextAddr_toNat, BitVec.toNat_setWidth]
  omega

/-- Settles O34: the target is the sum itself, which 16 bits hold. -/
theorem indexedJumpAddsV0 : Obligations.IndexedJumpAddsV0 := by
  intro nnn s
  exact ⟨_, exec_jpV0 nnn s, rfl, indexedTarget_toNat nnn (s.getV 0)⟩

/-! ### The key skips (R250 to R252) -/

theorem exec_skp (x : Reg) (s : State) : exec (.skp x) s = .next (s.skipIf (keyPressed s.key (s.getV x))) := rfl

theorem exec_sknp (x : Reg) (s : State) : exec (.sknp x) s = .next (s.skipIf (!keyPressed s.key (s.getV x))) := rfl

/-- Settles O55: the key index is the low nibble, and each test is a skip on that key's bit. -/
theorem keySkipsTestTheLowNibbleKey : Obligations.KeySkipsTestTheLowNibbleKey := by
  intro x s k hk
  have hkey : keyPressed s.key (s.getV x) = s.key.getLsbD k.val := by rw [keyPressed, lowNibble, hk]
  rw [exec_skp, exec_sknp, hkey]
  refine ⟨fun hon => ?_, fun hoff => ?_⟩
  · rw [hon, Bool.not_true, State.skipIf_true, State.skipIf_false]
    exact ⟨rfl, rfl⟩
  · rw [hoff, Bool.not_false, State.skipIf_true, State.skipIf_false]
    exact ⟨rfl, rfl⟩

end Sys2Proof.Machine
end

section
/-! ALU and FX1E (R162, R171 to R173, R176, R178, R180, R201), and which registers an instruction writes (R24, R37). -/

namespace Sys2Proof.Machine

/-! ### The instructions -/

theorem exec_addImm (x : Reg) (kk : Byte) (s : State) :
    exec (.addImm x kk) s = .next (s.setV x (addBytes (s.getV x) kk)).advance := rfl

theorem exec_orReg (x y : Reg) (s : State) : exec (.orReg x y) s = .next (s.logicResult x (s.getV x ||| s.getV y)) := rfl

theorem exec_andReg (x y : Reg) (s : State) : exec (.andReg x y) s = .next (s.logicResult x (s.getV x &&& s.getV y)) := rfl

theorem exec_xorReg (x y : Reg) (s : State) : exec (.xorReg x y) s = .next (s.logicResult x (s.getV x ^^^ s.getV y)) := rfl

theorem exec_shr (x y : Reg) (s : State) : exec (.shr x y) s =
    .next (s.resultThenFlag x (shiftRight (s.shiftSource x y)) (shiftedOutRight (s.shiftSource x y))) := rfl

theorem exec_shl (x y : Reg) (s : State) : exec (.shl x y) s =
    .next (s.resultThenFlag x (shiftLeft (s.shiftSource x y)) (shiftedOutLeft (s.shiftSource x y))) := rfl

theorem exec_addI_carryVF (x : Reg) {s : State} (h : s.config.fx1e = .carryVF) : exec (.addI x) s =
    .next ((s.setI (BitVec.ofNat 16 (indexSum s.i (s.getV x)))).setFlag (indexPassesMemory s.i (s.getV x))).advance := by
  simp only [exec, execAddI, h]

theorem exec_addI_wrap12 (x : Reg) {s : State} (h : s.config.fx1e = .wrap12) : exec (.addI x) s =
    .next (s.setI (BitVec.ofNat 16 (indexSum s.i (s.getV x) % 0x1000))).advance := by
  simp only [exec, execAddI, h]

/-- Settles O36: the one register written is the destination, VF like any other. -/
theorem addImmediateWrapsWithoutAFlag : Obligations.AddImmediateWrapsWithoutAFlag := by
  intro x kk s
  refine ⟨_, exec_addImm x kk s, State.advance_setV_frame s x _, ?_, fun r hr => ?_⟩
  · rw [State.getV_advance_setV, if_pos rfl, addBytes_toNat]
  · rw [State.getV_advance_setV, if_neg hr]

/-! ### OR, AND, XOR (R171 to R173) -/

section

variable (s : State) (x : Reg) (b : Byte)

theorem State.logicResult_of_resets {s : State} (h : s.config.logicResetsVF = true) :
    s.logicResult x b = s.resultThenFlag x b false := if_pos h

theorem State.logicResult_of_keeps {s : State} (h : s.config.logicResetsVF = false) :
    s.logicResult x b = (s.setV x b).advance := if_neg (Bool.eq_false_iff.mp h)

theorem State.logicResult_frame : s.logicResult x b = { s with v := (s.logicResult x b).v, pc := s.pc + 2 } := by
  unfold State.logicResult
  split <;> rfl

theorem State.getV_logicResult_of_ne {r : Reg} (hx : r ≠ x) (hvf : r ≠ Reg.vf) : (s.logicResult x b).getV r = s.getV r := by
  unfold State.logicResult
  split
  · exact State.getV_resultThenFlag_of_ne s x b false hx hvf
  · rw [State.getV_advance_setV, if_neg hx]

theorem State.getV_logicResult_self (h : x ≠ Reg.vf ∨ s.config.logicResetsVF = false) : (s.logicResult x b).getV x = b := by
  unfold State.logicResult
  split
  case isTrue hresets =>
    exact State.getV_resultThenFlag_self s x b false (h.resolve_right (by simp [hresets]))
  case isFalse => rw [State.getV_advance_setV, if_pos rfl]

end

/-- The shared effect of the three, for the result `b` of any bitwise operation `op`. -/
theorem State.logicResult_spec (s : State) (x y : Reg) (b : Byte) (op : Bool → Bool → Bool)
    (hb : ∀ k, b.getLsbD k = op ((s.getV x).getLsbD k) ((s.getV y).getLsbD k)) :
    s.logicResult x b = { s with v := (s.logicResult x b).v, pc := s.pc + 2 } ∧
    (∀ r, r ≠ x → r ≠ Reg.vf → (s.logicResult x b).getV r = s.getV r) ∧
    ((x ≠ Reg.vf ∨ s.config.logicResetsVF = false) → ∀ k, k < 8 →
      ((s.logicResult x b).getV x).getLsbD k = op ((s.getV x).getLsbD k) ((s.getV y).getLsbD k)) ∧
    (s.config.logicResetsVF = true → (s.logicResult x b).getV Reg.vf = 0) ∧
    (s.config.logicResetsVF = false → x ≠ Reg.vf → (s.logicResult x b).getV Reg.vf = s.getV Reg.vf) := by
  refine ⟨s.logicResult_frame x b, fun r => s.getV_logicResult_of_ne x b, fun h k _ => ?_, fun h => ?_, fun h hx => ?_⟩
  · rw [s.getV_logicResult_self x b h, hb]
  · rw [State.logicResult_of_resets x b h, State.getV_resultThenFlag_vf]
    rfl
  · rw [State.logicResult_of_keeps x b h, State.getV_advance_setV, if_neg (Ne.symm hx)]

/-- Settles O37: each of the three is the shared effect, with its own operation on bits. -/
theorem logicOperationsActBitwise : Obligations.LogicOperationsActBitwise := by
  rintro x y s p (rfl | rfl | rfl)
  · exact ⟨_, exec_orReg x y s, s.logicResult_spec x y _ _ fun k => BitVec.getLsbD_or⟩
  · exact ⟨_, exec_andReg x y s, s.logicResult_spec x y _ _ fun k => BitVec.getLsbD_and⟩
  · exact ⟨_, exec_xorReg x y s, s.logicResult_spec x y _ _ fun k => BitVec.getLsbD_xor⟩

/-! ### The shifts (R176, R178) -/

theorem shiftRight_toNat (a : Byte) : (shiftRight a).toNat = a.toNat / 2 := by
  rw [shiftRight, BitVec.toNat_ofNat]
  omega

theorem shiftLeft_toNat (a : Byte) : (shiftLeft a).toNat = a.toNat * 2 % 256 := by
  rw [shiftLeft, BitVec.toNat_ofNat]

theorem flagByte_toNat (c : Bool) : (flagByte c).toNat = c.toNat := by cases c <;> rfl

theorem shiftedOutRight_toNat (a : Byte) : (shiftedOutRight a).toNat = a.toNat % 2 := by
  rw [shiftedOutRight, BitVec.getLsbD, Nat.toNat_testBit]
  omega

theorem shiftedOutLeft_toNat (a : Byte) : (shiftedOutLeft a).toNat = a.toNat / 128 := by
  rw [shiftedOutLeft, BitVec.getLsbD, Nat.toNat_testBit]
  omega

theorem State.shiftSource_eq (s : State) (x y : Reg) :
    s.shiftSource x y = if s.config.shiftSource = .vx then s.getV x else s.getV y := by
  unfold State.shiftSource
  cases s.config.shiftSource <;> rfl

/-- What both shifts leave, for any result and any lost bit. -/
theorem State.resultThenFlag_toNat_spec (s : State) (x : Reg) {b : Byte} {c : Bool} {n m : Nat} (hb : b.toNat = n)
    (hc : c.toNat = m) :
    s.resultThenFlag x b c = { s with v := (s.resultThenFlag x b c).v, pc := s.pc + 2 } ∧
    (x ≠ Reg.vf → ((s.resultThenFlag x b c).getV x).toNat = n) ∧ ((s.resultThenFlag x b c).getV Reg.vf).toNat = m ∧
    ∀ r, r ≠ x → r ≠ Reg.vf → (s.resultThenFlag x b c).getV r = s.getV r := by
  refine ⟨State.resultThenFlag_frame s x b c, fun hx => ?_, ?_, fun r => State.getV_resultThenFlag_of_ne s x b c⟩
  · rw [State.getV_resultThenFlag_self s x b c hx, hb]
  · rw [State.getV_resultThenFlag_vf, flagByte_toNat, hc]

/-- Settles O40: the result and the lost bit are the quotient and the remainder of the one source. -/
theorem shiftsPutTheLostBitInVF : Obligations.ShiftsPutTheLostBitInVF := by
  intro x y s a ha
  rw [← s.shiftSource_eq x y] at ha
  subst ha
  exact ⟨⟨_, exec_shr x y s, s.resultThenFlag_toNat_spec x (shiftRight_toNat _) (shiftedOutRight_toNat _)⟩,
    ⟨_, exec_shl x y s, s.resultThenFlag_toNat_spec x (shiftLeft_toNat _) (shiftedOutLeft_toNat _)⟩⟩

/-! ### CXKK (R180) -/

theorem State.randIn_of_cons {s : State} {b : Byte} {rest : List Byte} (h : s.rands = b :: rest) : s.randIn = b := by
  rw [State.randIn, h]

/-- Settles O41: the byte drawn, supplied or free, goes through the mask to `x`. -/
theorem randomByteIsMaskedAndConsumed : Obligations.RandomByteIsMaskedAndConsumed := by
  intro x kk s
  have hv := State.getV_advance_setV s.takeRand x (s.randIn &&& kk)
  refine ⟨_, exec_rnd x kk s, rfl, fun r hr => ?_, fun k _ hk => ?_, fun b rest hb => ?_⟩
  · rw [hv, if_neg hr, State.getV_takeRand]
  · rw [hv, if_pos rfl, BitVec.getLsbD_and, hk, Bool.and_false]
  · rw [hv, if_pos rfl, State.randIn_of_cons hb]

/-! ### FX1E (R201) -/

/-- Settles O44: under each policy I is the sum in its own modulus, and only `carry_vf` has a flag to write. -/
theorem addIndexFollowsThePolicy : Obligations.AddIndexFollowsThePolicy := by
  intro x s
  cases hpolicy : s.config.fx1e with
  | carryVF =>
    refine ⟨_, exec_addI_carryVF x hpolicy, rfl, fun r hr => State.getV_setV_of_ne _ hr _, fun _ => ⟨?_, ?_⟩,
      fun h => nomatch h⟩
    · exact BitVec.toNat_ofNat _ _
    · exact (State.getV_setV_self _ Reg.vf _).trans (flagByte_decide _)
  | wrap12 =>
    refine ⟨_, exec_addI_wrap12 x hpolicy, rfl, fun _ _ => rfl, (fun h => nomatch h), fun _ => ⟨?_, rfl⟩⟩
    rw [State.i_advance_setI, BitVec.toNat_ofNat, indexSum]
    omega

end Sys2Proof.Machine
end

section
/-! Who writes V and I (R24, R37, R38). -/

namespace Sys2Proof

/-- `i` can write register `r` under the parameters `cfg`. -/
def Instr.writesReg (i : Instr) (cfg : Config) (r : Reg) : Prop :=
  match i with
  | .ldImm x _ | .addImm x _ | .ldReg x _ | .rnd x _ | .ldVxDT x | .ldVxK x => x = r
  | .orReg x _ | .andReg x _ | .xorReg x _ => x = r ∨ (r = Reg.vf ∧ cfg.logicResetsVF = true)
  | .addReg x _ | .subReg x _ | .shr x _ | .subn x _ | .shl x _ => x = r ∨ r = Reg.vf
  | .drw _ _ _ => r = Reg.vf
  | .addI _ => r = Reg.vf ∧ cfg.fx1e = .carryVF
  | .ldRegs x => r ≤ x
  | _ => False

/-- `i` can write I. -/
def Instr.writesIndex (i : Instr) : Prop :=
  match i with
  | .ldI _ | .addI _ | .ldF _ | .stRegs _ | .ldRegs _ => True
  | _ => False

end Sys2Proof

namespace Sys2Proof.Machine

/-- `t` differs from `s` in V and I only in what `i` can write there. -/
structure State.RegistersKeptBut (i : Instr) (s t : State) : Prop where
  v     : ∀ r, t.getV r = s.getV r ∨ i.writesReg s.config r
  index : t.i = s.i ∨ i.writesIndex

section

variable (s : State) (x : Reg) (b : Byte)

theorem State.getV_setV_cases (r : Reg) : (s.setV x b).getV r = s.getV r ∨ x = r := by
  by_cases hr : r = x
  · exact .inr hr.symm
  · exact .inl (State.getV_setV_of_ne s hr b)

theorem State.getV_resultThenFlag_cases (c : Bool) (r : Reg) :
    (s.resultThenFlag x b c).getV r = s.getV r ∨ x = r ∨ r = Reg.vf := by
  by_cases hr : x = r ∨ r = Reg.vf
  · exact .inr hr
  · obtain ⟨hx, hvf⟩ := not_or.mp hr
    exact .inl (State.getV_resultThenFlag_of_ne s x b c (Ne.symm hx) hvf)

theorem State.getV_logicResult_cases (r : Reg) :
    (s.logicResult x b).getV r = s.getV r ∨ x = r ∨ (r = Reg.vf ∧ s.config.logicResetsVF = true) := by
  cases hresets : s.config.logicResetsVF with
  | true => simpa [State.logicResult_of_resets x b hresets] using s.getV_resultThenFlag_cases x b false r
  | false => simpa [State.logicResult_of_keeps x b hresets] using s.getV_setV_cases x b r

theorem State.i_logicResult : (s.logicResult x b).i = s.i := by
  rw [State.logicResult_frame]

theorem State.registersKeptBut_waitKey : s.RegistersKeptBut (.ldVxK x) (s.waitKey x) := by
  unfold State.waitKey
  split
  · split
    · exact ⟨fun _ => .inl rfl, .inl rfl⟩
    · exact ⟨fun r => s.getV_setV_cases x _ r, .inl rfl⟩
  · exact ⟨fun _ => .inl rfl, .inl rfl⟩

theorem State.registersKeptBut_guardRange {i : Instr} {s body : State} (w : Word) (base n : Nat)
    (h : s.RegistersKeptBut i body) : s.RegistersKeptBut i (s.guardRange w base n body) := by
  obtain ⟨-, heq⟩ | ⟨-, heq⟩ := s.guardRange_cases w base n body
  · rwa [heq]
  · rw [heq]
    exact ⟨fun _ => .inl rfl, .inl rfl⟩

end

theorem exec_next_registersKeptBut (i : Instr) (s : State) : ∃ t, exec i s = .next t ∧ s.RegistersKeptBut i t := by
  cases i with
  | ret =>
    refine ⟨_, exec_ret s, ?_⟩
    split <;> exact ⟨fun _ => .inl rfl, .inl rfl⟩
  | call nnn =>
    refine ⟨_, exec_call nnn s, ?_⟩
    split <;> exact ⟨fun _ => .inl rfl, .inl rfl⟩
  | ldImm x kk => exact ⟨_, rfl, fun r => s.getV_setV_cases x _ r, .inl rfl⟩
  | addImm x kk => exact ⟨_, rfl, fun r => s.getV_setV_cases x _ r, .inl rfl⟩
  | ldReg x y => exact ⟨_, rfl, fun r => s.getV_setV_cases x _ r, .inl rfl⟩
  | ldVxDT x => exact ⟨_, rfl, fun r => s.getV_setV_cases x _ r, .inl rfl⟩
  | rnd x kk => exact ⟨_, rfl, fun r => s.takeRand.getV_setV_cases x _ r, .inl rfl⟩
  | orReg x y => exact ⟨_, rfl, s.getV_logicResult_cases x _, .inl (s.i_logicResult x _)⟩
  | andReg x y => exact ⟨_, rfl, s.getV_logicResult_cases x _, .inl (s.i_logicResult x _)⟩
  | xorReg x y => exact ⟨_, rfl, s.getV_logicResult_cases x _, .inl (s.i_logicResult x _)⟩
  | addReg x y => exact ⟨_, rfl, s.getV_resultThenFlag_cases x _ _, .inl rfl⟩
  | subReg x y => exact ⟨_, rfl, s.getV_resultThenFlag_cases x _ _, .inl rfl⟩
  | shr x y => exact ⟨_, rfl, s.getV_resultThenFlag_cases x _ _, .inl rfl⟩
  | subn x y => exact ⟨_, rfl, s.getV_resultThenFlag_cases x _ _, .inl rfl⟩
  | shl x y => exact ⟨_, rfl, s.getV_resultThenFlag_cases x _ _, .inl rfl⟩
  | drw x y n =>
    refine ⟨_, exec_drw x y n s, ?_⟩
    have hshow : ∀ p, s.RegistersKeptBut (.drw x y n) (s.showSprite p) := fun p =>
      ⟨fun r => ((s.setFb p.fb).getV_setV_cases Reg.vf _ r).imp_right Eq.symm, .inl rfl⟩
    split
    · exact hshow _
    · exact State.registersKeptBut_guardRange _ _ _ (hshow _)
  | ldVxK x =>
    refine ⟨_, rfl, ?_⟩
    split
    · exact ⟨fun _ => .inl rfl, .inl rfl⟩
    · exact s.registersKeptBut_waitKey x
  | addI x =>
    cases hpolicy : s.config.fx1e with
    | carryVF =>
      refine ⟨_, exec_addI_carryVF x hpolicy, fun r => ?_, .inr trivial⟩
      exact (State.getV_setV_cases _ Reg.vf _ r).imp_right fun hr => ⟨hr.symm, hpolicy⟩
    | wrap12 => exact ⟨_, exec_addI_wrap12 x hpolicy, fun _ => .inl rfl, .inr trivial⟩
  | ldI nnn => exact ⟨_, rfl, fun _ => .inl rfl, .inr trivial⟩
  | ldF x => exact ⟨_, rfl, fun _ => .inl rfl, .inr trivial⟩
  | ldB x => exact ⟨_, exec_ldB x s, State.registersKeptBut_guardRange _ _ _ ⟨fun _ => .inl rfl, .inl rfl⟩⟩
  | stRegs x => exact ⟨_, exec_stRegs x s, State.registersKeptBut_guardRange _ _ _ ⟨fun _ => .inl rfl, .inr trivial⟩⟩
  | ldRegs x =>
    refine ⟨_, exec_ldRegs x s, State.registersKeptBut_guardRange _ _ _ ⟨fun r => ?_, .inr trivial⟩⟩
    rw [State.advance_eq, State.getV_goto, State.getV_setI, State.getV_loadRegs]
    by_cases hr : r ≤ x
    · exact .inr hr
    · exact .inl (if_neg fun hlt => hr (Nat.le_of_lt_succ hlt))
  | _ => exact ⟨_, rfl, fun _ => .inl rfl, .inl rfl⟩

/-- Settles O24: the registers that an instruction can write are the ones that the statement names for it. -/
theorem registersAreWrittenOnlyByTheirWriters : Obligations.RegistersAreWrittenOnlyByTheirWriters := by
  intro i s t h
  obtain ⟨hv, hindex⟩ := exec_next_elim (exec_next_registersKeptBut i s) h
  refine ⟨fun r hne => ?_, fun hne => ?_⟩
  · have hwrites := (hv r).resolve_left hne
    cases i with
    | ldImm | addImm | ldReg | rnd | ldVxDT | ldVxK | orReg | andReg | xorReg | addReg | subReg | shr | subn | shl | drw
    | addI | ldRegs => simpa [Instr.writesReg] using hwrites
    | _ => exact hwrites.elim
  · have hwrites := hindex.resolve_left hne
    cases i with
    | ldI | addI | ldF | stRegs | ldRegs => simp
    | _ => exact hwrites.elim

end Sys2Proof.Machine
end

section
/-! The three that move bytes between V and memory, and the range check they share with DXYN (R202, R206 to R208,
R313). -/

namespace Sys2Proof.Machine

/-! ### The range check, each way -/

theorem State.guardRange_inside (s body : State) (w : Word) {base n : Nat} (h : base + n ≤ 0x1000) :
    s.guardRange w base n body = body := if_neg (by omega)

theorem State.guardRange_outside (s body : State) (w : Word) {base n : Nat} (h : base + n - 1 > 0xFFF) :
    s.guardRange w base n body = s.raise (.outOfBounds s.pc (some w) (max base 0x1000)) := if_pos h

section

variable {s : State}

theorem exec_ldB_inside (x : Reg) (h : s.i.toNat + 3 ≤ 0x1000) :
    exec (.ldB x) s = .next (s.writeBytes s.i.toNat (bcdDigits (s.getV x))).advance := by
  rw [exec_ldB, State.guardRange_inside _ _ _ h]

theorem exec_stRegs_inside (x : Reg) (h : s.i.toNat + (x.val + 1) ≤ 0x1000) : exec (.stRegs x) s =
    .next ((s.writeBytes s.i.toNat (s.regsUpTo x)).setI (indexPast s.i x)).advance := by
  rw [exec_stRegs, State.guardRange_inside _ _ _ h]

theorem exec_ldRegs_inside (x : Reg) (h : s.i.toNat + (x.val + 1) ≤ 0x1000) : exec (.ldRegs x) s =
    .next ((s.loadRegs (x.val + 1) fun k => s.readByte (s.i.toNat + k)).setI (indexPast s.i x)).advance := by
  rw [exec_ldRegs, State.guardRange_inside _ _ _ h]

theorem exec_drw_inside (x y : Reg) (n : Fin 16) (h : s.i.toNat + n.val ≤ 0x1000) :
    exec (.drw x y n) s = .next (s.showSprite (s.spriteDrawn x y n)) := by
  rw [exec_drw, State.guardRange_inside _ _ _ h, ite_self]

end

/-- The lowest address of a range that leaves memory is the base or 0x1000, and every lower one is legal. -/
theorem lowest_illegal_address {base n : Nat} (h : base + n - 1 > 0xFFF) (hn : 1 ≤ n) :
    base ≤ max base 0x1000 ∧ max base 0x1000 < base + n ∧ max base 0x1000 > 0xFFF ∧
      ∀ b, base ≤ b → b < max base 0x1000 → b ≤ 0xFFF := by
  refine ⟨Nat.le_max_left _ _, by omega, by omega, fun b _ _ => by omega⟩

/-- Settles O48: each of the four is its range check and a body, and the check fails. -/
theorem rangesOutsideMemoryRaiseBeforeAnyWrite : Obligations.RangesOutsideMemoryRaiseBeforeAnyWrite := by
  intro x y n s p hp hrange
  have hn : 1 ≤ p.2 := by
    obtain rfl | rfl | rfl | ⟨rfl, hn⟩ := hp
    · exact Nat.le_add_left 1 2
    · exact Nat.le_add_left 1 _
    · exact Nat.le_add_left 1 _
    · exact hn
  obtain ⟨hbase, hlast, hillegal, hlowest⟩ := lowest_illegal_address hrange hn
  refine ⟨encode p.1, _, decodeWord_encode p.1, hbase, hlast, hillegal, hlowest, ?_⟩
  obtain rfl | rfl | rfl | ⟨rfl, hn⟩ := hp
  · rw [exec_ldB, State.guardRange_outside _ _ _ hrange]
    rfl
  · rw [exec_stRegs, State.guardRange_outside _ _ _ hrange]
    rfl
  · rw [exec_ldRegs, State.guardRange_outside _ _ _ hrange]
    rfl
  · rw [exec_drw, if_neg (Nat.ne_of_gt hn), State.guardRange_outside _ _ _ hrange]
    rfl

/-! ### FX33 (R206) -/

theorem bcdDigits_sum (b : Byte) : 100 * ((bcdDigits b).getD 0 0).toNat + 10 * ((bcdDigits b).getD 1 0).toNat +
    ((bcdDigits b).getD 2 0).toNat = b.toNat := by
  simp only [bcdDigits, List.getD_cons_zero, List.getD_cons_succ, BitVec.toNat_ofNat]
  omega

theorem bcdDigits_lt (b : Byte) : ((bcdDigits b).getD 1 0).toNat < 10 ∧ ((bcdDigits b).getD 2 0).toNat < 10 := by
  simp only [bcdDigits, List.getD_cons_zero, List.getD_cons_succ, BitVec.toNat_ofNat]
  omega

theorem State.readByte_writeBytes_inside (s : State) {a k : Nat} {vs : List Byte} (h : k < vs.length) :
    (s.writeBytes a vs).readByte (a + k) = vs.getD k 0 := by
  rw [State.readByte_writeBytes, if_pos (by omega), Nat.add_sub_cancel_left]

theorem State.readByte_writeBytes_outside (s : State) {a b : Nat} {vs : List Byte} (h : b < a ∨ a + vs.length ≤ b) :
    (s.writeBytes a vs).readByte b = s.readByte b := by
  rw [State.readByte_writeBytes, if_neg (by omega)]

/-- Settles O45: the three bytes are the digits, and those add up to Vx. -/
theorem bcdStoresThreeDecimalDigits : Obligations.BcdStoresThreeDecimalDigits := by
  intro x s hrange
  have hread : ∀ k, k < 3 → (s.writeBytes s.i.toNat (bcdDigits (s.getV x))).advance.readByte (s.i.toNat + k) =
      (bcdDigits (s.getV x)).getD k 0 := fun k hk => s.readByte_writeBytes_inside hk
  have hread0 := hread 0 (by omega)
  rw [Nat.add_zero] at hread0
  obtain ⟨htens, hones⟩ := bcdDigits_lt (s.getV x)
  refine ⟨_, exec_ldB_inside x (by omega), rfl, ?_⟩
  rw [hread0, hread 1 (by omega), hread 2 (by omega)]
  refine ⟨bcdDigits_sum (s.getV x), htens, hones, fun a ha => s.readByte_writeBytes_outside ?_⟩
  exact ha.imp_right Nat.succ_le_of_lt

/-! ### FX55 and FX65 (R207, R208) -/

theorem indexPast_toNat {i : Addr} {x : Reg} (h : i.toNat + x.val ≤ 0xFFF) : (indexPast i x).toNat = i.toNat + x.val + 1 := by
  rw [indexPast, BitVec.toNat_ofNat]
  omega

/-- Settles O46: byte `k` of what is stored is register `k`, and the store ends with the one of `x`. -/
theorem storeRegistersWritesV0ToVx : Obligations.StoreRegistersWritesV0ToVx := by
  intro x s hrange
  refine ⟨_, exec_stRegs_inside x (by omega), rfl, indexPast_toNat hrange, fun k hk => ?_, fun a ha => ?_⟩
  · have hlen : k.val < (s.regsUpTo x).length := s.regsUpTo_length x ▸ Nat.lt_succ_of_le hk
    exact (s.readByte_writeBytes_inside hlen).trans (s.regsUpTo_getD x k hk)
  · exact s.readByte_writeBytes_outside (by rw [s.regsUpTo_length]; omega)

theorem State.advance_setI_loadRegs_frame {s t : State} {n : Nat} {f : Nat → Byte} {a : Addr}
    (h : t = ((s.loadRegs n f).setI a).advance) : t = { s with v := t.v, i := t.i, pc := s.pc + 2 } := by
  obtain ⟨v, hv⟩ := s.exists_loadRegs_eq n f
  rw [h, hv]
  rfl

/-- Settles O47: register `k` becomes the byte at I + `k`, up to `x`. -/
theorem loadRegistersReadsV0ToVx : Obligations.LoadRegistersReadsV0ToVx := by
  intro x s hrange
  refine ⟨_, exec_ldRegs_inside x (by omega), State.advance_setI_loadRegs_frame rfl, ?_, fun r => ?_⟩
  · rw [State.i_advance_setI, indexPast_toNat hrange]
  · rw [State.advance_eq, State.getV_goto, State.getV_setI, State.getV_loadRegs]
    exact if_congr Nat.lt_succ_iff rfl rfl

/-- Settles O49: FX65 reads back the bytes that FX55 left, whose addresses the same I gives. -/
theorem loadAfterStoreRestoresTheRegisters : Obligations.LoadAfterStoreRestoresTheRegisters := by
  intro x s t v' hrange hstore
  obtain ⟨t', ht', -, hti, hstored, -⟩ := storeRegistersWritesV0ToVx x s hrange
  obtain rfl : t' = t := Host.Outcome.next.inj (ht'.symm.trans hstore)
  obtain ⟨u, hu, -, hui, hloaded⟩ := loadRegistersReadsV0ToVx x { t' with v := v', i := s.i } hrange
  refine ⟨u, hu, fun r hr => ?_, BitVec.eq_of_toNat_eq (hui.trans hti.symm)⟩
  rw [hloaded, if_pos hr]
  exact hstored r hr

/-! ### The fetch after a store (R63, R313) -/

/-- The stored bytes as a function of their place. -/
theorem State.readByte_writeBytes_of_getD (s : State) {a n : Nat} {vs : List Byte} {f : Nat → Byte} (hlen : vs.length = n)
    (hf : ∀ k, k < n → vs.getD k 0 = f k) (b : Nat) :
    (s.writeBytes a vs).readByte b = if a ≤ b ∧ b < a + n then f (b - a) else s.readByte b := by
  rw [State.readByte_writeBytes, hlen]
  split
  · exact hf _ (by omega)
  · rfl

theorem State.fetch_sampleInputs (s : State) : s.sampleInputs.fetch = s.fetch := by
  rw [State.sampleInputs_spec]
  exact State.fetch_congr rfl rfl rfl

/-- The next fetch reads memory as the instruction left it, at the two addresses past the instruction's own. -/
theorem State.fetch_after_store {s t : State} {n : Nat} {f : Nat → Byte} (hfit : s.pc.toNat + 3 ≤ 0xFFF)
    (hpc : t.pc = nextPc s.pc)
    (hread : ∀ b, t.readByte b = if s.i.toNat ≤ b ∧ b < s.i.toNat + n then f (b - s.i.toNat) else s.readByte b) :
    ∃ hi lo, t.fetch = .word (wordOfBytes hi lo) ∧ t.sampleInputs.fetch = t.fetch ∧
      hi = (if s.i.toNat ≤ s.pc.toNat + 2 ∧ s.pc.toNat + 2 < s.i.toNat + n
        then f (s.pc.toNat + 2 - s.i.toNat) else s.readByte (s.pc.toNat + 2)) ∧
      lo = (if s.i.toNat ≤ s.pc.toNat + 3 ∧ s.pc.toNat + 3 < s.i.toNat + n
        then f (s.pc.toNat + 3 - s.i.toNat) else s.readByte (s.pc.toNat + 3)) := by
  have hnext : t.pc.toNat = s.pc.toNat + 2 := by rw [hpc, nextPc_toNat (by omega)]
  refine ⟨_, _, State.fetch_inside (by omega), t.fetch_sampleInputs, ?_, ?_⟩
  · rw [hnext, hread]
  · rw [hnext, hread]

theorem State.regsUpTo_getD_ofNat (s : State) (x : Reg) {k : Nat} (h : k < x.val + 1) :
    (s.regsUpTo x).getD k 0 = s.getV (Fin.ofNat 16 k) := by
  have hk : (Fin.ofNat 16 k).val = k := Nat.mod_eq_of_lt (by omega)
  have hget := s.regsUpTo_getD x (Fin.ofNat 16 k) (Fin.le_def.mpr (by omega))
  rwa [hk] at hget

theorem bcdDigits_getD (b : Byte) {k : Nat} (h : k < 3) :
    (bcdDigits b).getD k 0 = BitVec.ofNat 8 (b.toNat / 10 ^ (2 - k) % 10) := by
  have hlt : b.toNat < 256 := b.isLt
  match k with
  | 0 =>
    have hmod : b.toNat / 100 % 10 = b.toNat / 100 := Nat.mod_eq_of_lt (by omega)
    exact congrArg (BitVec.ofNat 8) hmod.symm
  | 1 => rfl
  | 2 => exact congrArg (fun v => BitVec.ofNat 8 (v % 10)) (Nat.div_one b.toNat).symm

/-- Settles O50: each store is one run of bytes from I, and the next fetch is past both instructions' own word. -/
theorem storeOverTheNextInstructionIsFetched : Obligations.StoreOverTheNextInstructionIsFetched := by
  rintro x s p (rfl | rfl) hrange hfit
  · have hread := s.readByte_writeBytes_of_getD (a := s.i.toNat) (s.regsUpTo_length x) fun k => s.regsUpTo_getD_ofNat x
    exact ⟨_, (State.fetch_after_store hfit rfl hread).imp fun hi ⟨lo, h⟩ => ⟨lo, exec_stRegs_inside x hrange, h⟩⟩
  · have hread := s.readByte_writeBytes_of_getD (a := s.i.toNat) (n := 3) rfl fun k => bcdDigits_getD (s.getV x)
    exact ⟨_, (State.fetch_after_store hfit rfl hread).imp fun hi ⟨lo, h⟩ => ⟨lo, exec_ldB_inside x hrange, h⟩⟩

end Sys2Proof.Machine
end

section
/-! Sprites (R230 to R236). -/

namespace Sys2Proof.Machine

/-! ### The bytes and the pixels of a sprite -/

theorem State.readBytes_length (s : State) (a n : Nat) : (s.readBytes a n).length = n := by
  simp [State.readBytes]

theorem State.readBytes_getD (s : State) (a : Nat) {k n : Nat} (h : k < n) :
    (s.readBytes a n).getD k 0 = s.readByte (a + k) := by
  simp [State.readBytes, h]

theorem State.spriteCovers.lt {s : State} {x y : Reg} {n : Fin 16} {r c : Nat} (h : s.spriteCovers x y n r c) :
    r < 32 ∧ c < 64 := by
  obtain ⟨k, j, -, -, rfl, rfl, -⟩ := h
  exact ⟨Nat.mod_lt _ (by decide), Nat.mod_lt _ (by decide)⟩

/-- The rows that DXYN draws cover the pixels of its sprite. -/
theorem State.rowsCover_iff_spriteCovers (s : State) (x y : Reg) (n : Fin 16) {r c : Nat} (hr : r < 32) (hc : c < 64) :
    rowsCover (s.getV y).toNat (s.getV x).toNat (s.readBytes s.i.toNat n.val) r c ↔ s.spriteCovers x y n r c := by
  simp only [rowsCover, rowCovers, State.readBytes_length, Nat.mod_eq_of_lt hr, Nat.mod_eq_of_lt hc]
  constructor
  · rintro ⟨k, hk, hrow, j, hj, hbit, hcol⟩
    exact ⟨k, j, hk, hj, hrow, hcol, s.readBytes_getD _ hk ▸ hbit⟩
  · rintro ⟨k, j, hk, hj, hrow, hcol, hbit⟩
    exact ⟨k, hk, hrow, j, hj, (s.readBytes_getD _ hk).symm ▸ hbit, hcol⟩

/-- The sprite drawn, in the terms of the pixels that it covers (R232). -/
theorem State.spriteDrawn_spec (s : State) (x y : Reg) (n : Fin 16) :
    (∀ r c, r < 32 → c < 64 → ((s.spriteDrawn x y n).fb.pixel r c ≠ s.fb.pixel r c ↔ s.spriteCovers x y n r c)) ∧
    ((s.spriteDrawn x y n).coll = true ↔ ∃ r c, s.spriteCovers x y n r c ∧ s.fb.pixel r c = true) := by
  have hlen : (s.readBytes s.i.toNat n.val).length ≤ 32 := by rw [State.readBytes_length]; omega
  obtain ⟨hpixel, hcoll⟩ := drawSprite_spec s.fb (s.getV y).toNat (s.getV x).toNat _ hlen
  refine ⟨fun r c hr hc => (hpixel r c).trans (s.rowsCover_iff_spriteCovers x y n hr hc), hcoll.trans ⟨?_, ?_⟩⟩
  · rintro ⟨r, c, hr, hc, hcover, hon⟩
    exact ⟨r, c, (s.rowsCover_iff_spriteCovers x y n hr hc).mp hcover, hon⟩
  · rintro ⟨r, c, hcover, hon⟩
    obtain ⟨hr, hc⟩ := hcover.lt
    exact ⟨r, c, hr, hc, (s.rowsCover_iff_spriteCovers x y n hr hc).mpr hcover, hon⟩

theorem State.getV_showSprite_vf (s : State) (p : Canvas) : (s.showSprite p).getV Reg.vf = flagByte p.coll := by
  rw [State.showSprite_eq, State.getV_goto, State.getV_setV_self]

theorem State.getV_showSprite_of_ne (s : State) (p : Canvas) {r : Reg} (h : r ≠ Reg.vf) :
    (s.showSprite p).getV r = s.getV r := by
  rw [State.showSprite_eq, State.getV_goto, State.getV_setV_of_ne _ h, State.getV_setFb]

/-- Settles O52: the framebuffer is that of the sprite drawn, and VF its collision. -/
theorem spriteInvertsThePixelsItCovers : Obligations.SpriteInvertsThePixelsItCovers := by
  intro x y n s hrange
  obtain ⟨hpixel, hcoll⟩ := s.spriteDrawn_spec x y n
  refine ⟨_, exec_drw_inside x y n hrange, rfl, hpixel, fun hhit => ?_, fun hmiss => ?_,
    fun r hr => s.getV_showSprite_of_ne _ hr⟩
  · rw [State.getV_showSprite_vf, hcoll.mpr hhit]
    rfl
  · have hoff : (s.spriteDrawn x y n).coll = false := by
      refine Bool.eq_false_iff.mpr fun hon => ?_
      obtain ⟨r, c, hcover, hpix⟩ := hcoll.mp hon
      exact Bool.false_ne_true ((hmiss r c hcover).symm.trans hpix)
    rw [State.getV_showSprite_vf, hoff]
    rfl

/-- Settles O53: with no rows the sprite drawn is the framebuffer as it was, without a collision. -/
theorem spriteOfNoRowsOnlyClearsVF : Obligations.SpriteOfNoRowsOnlyClearsVF := by
  intro x y s
  have hdrawn : s.spriteDrawn x y 0 = { fb := s.fb, coll := false } := rfl
  have hexec : exec (.drw x y 0) s = .next (s.showSprite { fb := s.fb, coll := false }) := by
    have hn : (0 : Fin 16).val = 0 := rfl
    rw [exec_drw, if_pos hn, hdrawn]
  exact ⟨_, hexec, rfl, s.getV_showSprite_vf _, fun r hr => s.getV_showSprite_of_ne _ hr⟩

/-! ### Drawing twice (R234) -/

/-- The pixels that a sprite covers depend on its coordinates, on I and on memory alone. -/
theorem State.spriteCovers_congr {s t : State} {x y : Reg} (hx : t.getV x = s.getV x) (hy : t.getV y = s.getV y)
    (hi : t.i = s.i) (hread : t.readByte = s.readByte) (n : Fin 16) (r c : Nat) :
    t.spriteCovers x y n r c ↔ s.spriteCovers x y n r c := by
  rw [State.spriteCovers, State.spriteCovers, hx, hy, hi, hread]

/-- Settles O54: both draws cover the same pixels, so each of them is inverted twice, and after the first one is on. -/
theorem drawingTwiceRestoresTheFramebuffer : Obligations.DrawingTwiceRestoresTheFramebuffer := by
  intro x y n s hx hy hrange
  obtain ⟨t, ht, hframe, hinverts, -, hclear, hregs⟩ := spriteInvertsThePixelsItCovers x y n s hrange
  have hi : t.i = s.i := by rw [hframe]
  have hread : t.readByte = s.readByte := by rw [hframe]; rfl
  have hcovers := State.spriteCovers_congr (hregs x hx) (hregs y hy) hi hread n
  obtain ⟨u, hu, -, hinverts', hset, -, -⟩ := spriteInvertsThePixelsItCovers x y n t (hi.symm ▸ hrange)
  refine ⟨t, u, ht, hu, Framebuffer.ext_pixel fun r c hr hc => ?_, fun hoff ⟨r, c, hcover⟩ => ⟨?_, ?_⟩⟩
  · have inverted_twice : ∀ p q p' : Bool, (p' ≠ q ↔ q ≠ p) → p' = p := by decide
    exact inverted_twice _ _ _ ((hinverts' r c hr hc).trans ((hcovers r c).trans (hinverts r c hr hc).symm))
  · exact hclear fun r c _ => hoff r c
  · obtain ⟨hr, hc⟩ := hcover.lt
    have hon : t.fb.pixel r c = true := by
      have hne := (hinverts r c hr hc).mpr hcover
      rwa [hoff r c, ne_eq, Bool.not_eq_false] at hne
    exact hset ⟨r, c, (hcovers r c).mpr hcover, hon⟩

end Sys2Proof.Machine
end

section
/-! The key wait and the sound timer (R254, R256). -/

namespace Sys2Proof.Machine

/-! ### Keys that went from released to pressed -/

theorem newlyPressed_getLsbD (key kprev : Keys) (k : Fin 16) :
    (newlyPressed key kprev).getLsbD k = (key.getLsbD k && !kprev.getLsbD k) := by
  simp [newlyPressed]

theorem newlyPressed_eq_zero {key kprev : Keys} (h : ∀ k : Fin 16, ¬ (key.getLsbD k = true ∧ kprev.getLsbD k = false)) :
    newlyPressed key kprev = 0 := by
  refine BitVec.eq_of_getLsbD_eq fun k hk => ?_
  have hno : (key.getLsbD k && !kprev.getLsbD k) = false := by simpa using h ⟨k, hk⟩
  rw [newlyPressed_getLsbD key kprev ⟨k, hk⟩, hno, BitVec.ofNat_eq_ofNat, BitVec.getLsbD_zero]

theorem lowestKey_eq {d : Keys} {k : Fin 16} (hk : d.getLsbD k = true) (hlow : ∀ j : Fin 16, j < k → d.getLsbD j = false) :
    lowestKey d = k.val := by
  have hfind : (List.range 16).find? (fun j => d.getLsbD j) = some k.val := by
    rw [List.find?_range_eq_some]
    refine ⟨hk, List.mem_range.mpr k.isLt, fun j hj => ?_⟩
    rw [hlow ⟨j, hj.trans k.isLt⟩ hj]
    rfl
  rw [lowestKey, hfind]
  rfl

/-! ### The three branches of a wait -/

section

variable {s : State} (x : Reg)

theorem State.waitKey_starts (h : s.kwait = false) : s.waitKey x = s.setWait true s.key := by
  rw [State.waitKey, h]
  rfl

theorem State.waitKey_goes_on (h : s.kwait = true) (hd : newlyPressed s.key s.kprev = 0) :
    s.waitKey x = { s with kprev := s.key } := by
  rw [State.waitKey, if_pos h, if_pos hd, State.setWait, ← h]

theorem State.waitKey_ends (h : s.kwait = true) (hd : newlyPressed s.key s.kprev ≠ 0) : s.waitKey x =
    ((s.setV x (BitVec.ofNat 8 (lowestKey (newlyPressed s.key s.kprev)))).setWait false s.kprev).advance := by
  rw [State.waitKey, if_pos h, if_neg hd]

end

/-- Settles O56: the keys that went from released to pressed decide whether a wait goes on, and the lowest one is stored. -/
theorem waitForKeyEndsOnAKeyDownTransition : Obligations.WaitForKeyEndsOnAKeyDownTransition := by
  refine fun x s => ⟨exec_ldVxK_nop x, fun hblock hoff => ?starts, fun hblock hon hnone => ?goesOn,
    fun hblock hon k hdown hup hlowest => ?ends⟩
  case starts =>
    rw [exec_ldVxK_block x hblock, State.waitKey_starts x hoff]
    rfl
  case goesOn => rw [exec_ldVxK_block x hblock, State.waitKey_goes_on x hon (newlyPressed_eq_zero hnone)]
  case ends =>
    have hk : (newlyPressed s.key s.kprev).getLsbD k = true := by rw [newlyPressed_getLsbD, hdown, hup]; rfl
    have hlow : ∀ j : Fin 16, j < k → (newlyPressed s.key s.kprev).getLsbD j = false := fun j hj => by
      have hno := hlowest j hj
      rw [newlyPressed_getLsbD]
      simpa using hno
    have hne : newlyPressed s.key s.kprev ≠ 0 := fun hzero => by
      rw [hzero] at hk
      exact Bool.false_ne_true (BitVec.getLsbD_zero.symm.trans hk)
    refine ⟨_, by rw [exec_ldVxK_block x hblock, State.waitKey_ends x hon hne, lowestKey_eq hk hlow], rfl, ?_, fun r hr => ?_⟩
    · rw [State.advance_eq, State.getV_goto, State.getV_setWait, State.getV_setV_self, BitVec.toNat_ofNat]
      omega
    · rw [State.advance_eq, State.getV_goto, State.getV_setWait, State.getV_setV_of_ne _ hr]

/-! ### The sound timer (R256) -/

/-- Settles O58: the timer written is the one that the end of the same cycle decays. -/
theorem soundTimerIsWrittenAndDecays : Obligations.SoundTimerIsWrittenAndDecays := by
  intro x s
  have hexec := exec_ldSTVx x s
  refine ⟨_, hexec, rfl, rfl, fun ⟨w, hw, hi⟩ hs => ⟨_, step_of_executed hs hw hi hexec hs, ?_⟩⟩
  rw [State.stOut_eq, State.st_sampleInputs_toNat]
  rfl

end Sys2Proof.Machine
end
